-- ==== Sys2Proof/Word.lean ====
section
/-! DEFINITION. The byte, the shift of a signed value, and the pair (F-number, block). -/

namespace Sys2Proof

/-- One byte: a port moves exactly one (20_memory.md R64). -/
abbrev Byte := BitVec 8

/-- `x >> n` on a signed value: the arithmetic shift, which is floor division by `2^n` (00_scope.md R13). -/
def asr (x : Int) (n : Nat) : Int := x >>> n

/-- A frequency: the F-number and the block (octave) an operator uses (10_state.md R38, R47). -/
structure Freq where
  fnum  : BitVec 11
  block : BitVec 3
deriving DecidableEq, Repr

end Sys2Proof
end

