-- ==== Sys2Proof/Syntax.lean ====
section
/-! DEFINITION. The instructions: one constructor per row of spec/opcode_table.json, with the operands the row's rule reads. -/

namespace Sys2Proof

/-- One of the chip's two register halves (00_scope.md R17). -/
inductive Part where
  | part0 | part1
deriving DecidableEq, Repr

/-- The index of a channel, 0..5 (00_scope.md R16). -/
inductive ChIx where
  | ch0 | ch1 | ch2 | ch3 | ch4 | ch5
deriving DecidableEq, Repr

/-- The number of an operator within its channel, 1..4 (00_scope.md R16). -/
inductive OpIx where
  | op1 | op2 | op3 | op4
deriving DecidableEq, Repr

/-- An operator of channel 2 that has an override frequency of its own: 1..3 (10_state.md R47). -/
inductive SpIx where
  | op1 | op2 | op3
deriving DecidableEq, Repr

/-- The mode of channel 2 (10_state.md R46; 30_encoding.md R87). -/
inductive Ch3Mode where
  | normal | special | csm
deriving DecidableEq, Repr

/-- The operations of the opcode table: eight port operations (format P, 30_encoding.md R80) and thirty-eight register
writes (format R, R81). A register write's operands are the fields R86 gives its data byte; data bits R86 does not list are no
operand. The rows of ignored words (R91) keep what their mask leaves free, so that each such word has a term of its own. -/
inductive Instr where
  -- format P
  | aw0 (v : Byte)
  | dw1 (v : Byte)
  | aw2 (v : Byte)
  | dw3 (v : Byte)
  | rd0
  | rd1
  | rd2
  | rd3
  -- format R: no other row matches
  | ignore (part : Part) (addr data : Byte)
  -- format R: global registers
  | lfo (enable : Bool) (freq : BitVec 3)
  | timerAHi (hi : BitVec 8)
  | timerALo (lo : BitVec 2)
  | timerB (period : BitVec 8)
  | timerCtrl (mode : Ch3Mode) (resetB resetA enableB enableA loadB loadA : Bool)
  | keyOnOff (c : ChIx) (keys : BitVec 4)
  | dacSample (sample : Byte)
  | dacEnable (enable : Bool)
  | ignoreKeyChsel3 (rest : BitVec 6)
  -- format R: per-operator registers
  | dtMul (c : ChIx) (o : OpIx) (dt : BitVec 3) (mul : BitVec 4)
  | ignoreDtMulCh3 (part : Part) (slot : BitVec 2) (data : Byte)
  | tl (c : ChIx) (o : OpIx) (level : BitVec 7)
  | ignoreTlCh3 (part : Part) (slot : BitVec 2) (data : Byte)
  | rsAr (c : ChIx) (o : OpIx) (rs : BitVec 2) (ar : BitVec 5)
  | ignoreRsArCh3 (part : Part) (slot : BitVec 2) (data : Byte)
  | amD1r (c : ChIx) (o : OpIx) (am : Bool) (d1r : BitVec 5)
  | ignoreAmD1rCh3 (part : Part) (slot : BitVec 2) (data : Byte)
  | d2r (c : ChIx) (o : OpIx) (rate : BitVec 5)
  | ignoreD2rCh3 (part : Part) (slot : BitVec 2) (data : Byte)
  | d1lRr (c : ChIx) (o : OpIx) (d1l : BitVec 4) (rr : BitVec 4)
  | ignoreD1lRrCh3 (part : Part) (slot : BitVec 2) (data : Byte)
  | ssgEg (c : ChIx) (o : OpIx) (ssg : BitVec 4)
  | ignoreSsgEgCh3 (part : Part) (slot : BitVec 2) (data : Byte)
  -- format R: per-channel registers
  | fnumLo (c : ChIx) (lo : Byte)
  | ignoreFnumLoCh3 (part : Part) (data : Byte)
  | fnumHiBlock (c : ChIx) (block : BitVec 3) (hi : BitVec 3)
  | ignoreFnumHiBlockCh3 (part : Part) (data : Byte)
  | ch2OpFnumLo (o : SpIx) (lo : Byte)
  | ignoreCh2OpFnumLoPart1 (sel : BitVec 2) (data : Byte)
  | ignoreCh2OpFnumLoSel3 (data : Byte)
  | ch2OpFnumHiBlock (o : SpIx) (block : BitVec 3) (hi : BitVec 3)
  | ignoreCh2OpFnumHiBlockPart1 (sel : BitVec 2) (data : Byte)
  | ignoreCh2OpFnumHiBlockSel3 (data : Byte)
  | fbAlg (c : ChIx) (fb : BitVec 3) (alg : BitVec 3)
  | ignoreFbAlgCh3 (part : Part) (data : Byte)
  | panAmsFms (c : ChIx) (panL panR : Bool) (ams : BitVec 2) (fms : BitVec 3)
  | ignorePanAmsFmsCh3 (part : Part) (data : Byte)
deriving DecidableEq, Repr

end Sys2Proof
end

