-- ==== Sys2Proof/WellFormed.lean ====
section
/-! DEFINITION. Which terms of `Instr` stand for a word of the opcode table. -/

namespace Sys2Proof

/-- The addresses of a part that no row but `IGNORE` covers: `$00`..`$1F` and `$B8`..`$FF` of both parts, all of `$20`..`$2F`
on part 1, and `$20`, `$21`, `$23`, `$29`, `$2C`..`$2F` on part 0 (30_encoding.md R82, R85, R91). -/
def ignoredAddr (part : Part) (addr : Byte) : Bool :=
  let a := addr.toNat
  a < 0x20 || 0xB8 ≤ a ||
    (0x20 ≤ a && a ≤ 0x2F &&
      match part with
      | .part1 => true
      | .part0 => a == 0x20 || a == 0x21 || a == 0x23 || a == 0x29 || 0x2C ≤ a)

/-- A well-formed instruction: a word that another row covers more specifically is no `IGNORE` word (30_encoding.md R82); every
other constructor's operands have exactly the widths of the row's fields, so nothing is left to check. -/
def Instr.wf : Instr → Bool
  | .ignore part addr _ => ignoredAddr part addr
  | _ => true

end Sys2Proof
end

