-- ==== Sys2Proof/Decode.lean ====
section
/-! DEFINITION. From words to instructions and back: the register fields (30_encoding.md R86), the address decode (R83..R85),
the decoder of both formats (R80..R82), the opcode table as data, and the encoder. -/

namespace Sys2Proof

/-! ## Register fields: the layout of 30_encoding.md R86, one definition per field of a data byte -/

namespace Field

def lfoEnable (d : Byte) : Bool := d.getLsbD 3
def lfoFreq (d : Byte) : BitVec 3 := d.extractLsb' 0 3
def periodALo (d : Byte) : BitVec 2 := d.extractLsb' 0 2
def modeBits (d : Byte) : BitVec 2 := d.extractLsb' 6 2
def resetB (d : Byte) : Bool := d.getLsbD 5
def resetA (d : Byte) : Bool := d.getLsbD 4
def enableB (d : Byte) : Bool := d.getLsbD 3
def enableA (d : Byte) : Bool := d.getLsbD 2
def loadB (d : Byte) : Bool := d.getLsbD 1
def loadA (d : Byte) : Bool := d.getLsbD 0
/-- Bit `k` is the key of operator `k + 1` (R88). -/
def keys (d : Byte) : BitVec 4 := d.extractLsb' 4 4
def chsel (d : Byte) : BitVec 3 := d.extractLsb' 0 3
def dacEnable (d : Byte) : Bool := d.getLsbD 7
def dt (d : Byte) : BitVec 3 := d.extractLsb' 4 3
def mul (d : Byte) : BitVec 4 := d.extractLsb' 0 4
def tl (d : Byte) : BitVec 7 := d.extractLsb' 0 7
def rs (d : Byte) : BitVec 2 := d.extractLsb' 6 2
def ar (d : Byte) : BitVec 5 := d.extractLsb' 0 5
def am (d : Byte) : Bool := d.getLsbD 7
def d1r (d : Byte) : BitVec 5 := d.extractLsb' 0 5
def d2r (d : Byte) : BitVec 5 := d.extractLsb' 0 5
def d1l (d : Byte) : BitVec 4 := d.extractLsb' 4 4
def rr (d : Byte) : BitVec 4 := d.extractLsb' 0 4
def ssg (d : Byte) : BitVec 4 := d.extractLsb' 0 4
/-- The block bits of a high-byte write, `$A4` and `$AC` groups alike. -/
def block (d : Byte) : BitVec 3 := d.extractLsb' 3 3
/-- The F-number bits 10..8 of a high-byte write, `$A4` and `$AC` groups alike. -/
def fnumHi (d : Byte) : BitVec 3 := d.extractLsb' 0 3
def fb (d : Byte) : BitVec 3 := d.extractLsb' 3 3
def alg (d : Byte) : BitVec 3 := d.extractLsb' 0 3
def panL (d : Byte) : Bool := d.getLsbD 7
def panR (d : Byte) : Bool := d.getLsbD 6
def ams (d : Byte) : BitVec 2 := d.extractLsb' 4 2
def fms (d : Byte) : BitVec 3 := d.extractLsb' 0 3

/-- The register group of a per-operator address, `a[7:4]` (R83). -/
def group (a : Byte) : BitVec 4 := a.extractLsb' 4 4
/-- The slot of a per-operator address, `a[3:2]` (R83). -/
def slot (a : Byte) : BitVec 2 := a.extractLsb' 2 2
/-- The register selector of a per-channel address, `a[7:2]` (R84). -/
def chanGroup (a : Byte) : BitVec 6 := a.extractLsb' 2 6
/-- The channel within the part (or the operator selector of `$A8`, `$AC`), `a[1:0]` (R83, R84). -/
def chan (a : Byte) : BitVec 2 := a.extractLsb' 0 2

end Field

/-! ## Address decode -/

/-- `c = 3 × part + a[1:0]`; `a[1:0] = 3` selects nothing (30_encoding.md R83, R84). -/
def chanOf (part : Part) (k : BitVec 2) : Option ChIx :=
  match part, k.toNat with
  | .part0, 0 => some .ch0
  | .part0, 1 => some .ch1
  | .part0, 2 => some .ch2
  | .part1, 0 => some .ch3
  | .part1, 1 => some .ch4
  | .part1, 2 => some .ch5
  | _, _ => none

/-- `SlotOp`: slots 0, 1, 2, 3 are operators 1, 3, 2, 4 (30_encoding.md R83). -/
def slotOp (slot : BitVec 2) : OpIx :=
  match slot.toNat with
  | 0 => .op1
  | 1 => .op3
  | 2 => .op2
  | _ => .op4

/-- The operator selector of the `$A8` and `$AC` groups: 0 is operator 3, 1 operator 1, 2 operator 2; 3 selects nothing
(30_encoding.md R84). -/
def spOf (k : BitVec 2) : Option SpIx :=
  match k.toNat with
  | 0 => some .op3
  | 1 => some .op1
  | 2 => some .op2
  | _ => none

/-- The `$27` mode field: 0 Normal, 1 Special, 2 CSM, 3 Special (30_encoding.md R87). -/
def modeOf (m : BitVec 2) : Ch3Mode :=
  match m.toNat with
  | 0 => .normal
  | 2 => .csm
  | _ => .special

/-- The `$28` channel select: 0, 1, 2 are channels 0..2; 4, 5, 6 are channels 3..5; 3 and 7 select nothing
(30_encoding.md R88). -/
def keyChan (sel : BitVec 3) : Option ChIx :=
  match sel.toNat with
  | 0 => some .ch0
  | 1 => some .ch1
  | 2 => some .ch2
  | 4 => some .ch3
  | 5 => some .ch4
  | 6 => some .ch5
  | _ => none

/-! ## Words -/

/-- A format P word: direction and port in bits 10..8, the byte in bits 7..0 (30_encoding.md R80). -/
def portWord (dirPort : BitVec 3) (v : Byte) : BitVec 11 := dirPort ++ v

/-- The part bit of a format R word. -/
def partBit : Part → BitVec 1
  | .part0 => 0
  | .part1 => 1

/-- The part a bit names. -/
def partOf (b : Bool) : Part := if b then .part1 else .part0

/-- A format R word: part, address, data (30_encoding.md R81). -/
def regWord (part : Part) (a d : Byte) : BitVec 17 := partBit part ++ a ++ d

/-! ## Decoder -/

/-- The port operation of a format P word (30_encoding.md R80): bits 10..8 choose it; a read has no operand. -/
def decodePort (w : BitVec 11) : Instr :=
  let v := w.extractLsb' 0 8
  match (w.extractLsb' 8 3).toNat with
  | 0 => .aw0 v
  | 1 => .dw1 v
  | 2 => .aw2 v
  | 3 => .dw3 v
  | 4 => .rd0
  | 5 => .rd1
  | 6 => .rd2
  | _ => .rd3

/-- Part-0 addresses `$20`..`$2F`, by the full address (30_encoding.md R85, R86). -/
def decodeGlobal (a d : Byte) : Instr :=
  match a.toNat with
  | 0x22 => .lfo (Field.lfoEnable d) (Field.lfoFreq d)
  | 0x24 => .timerAHi d
  | 0x25 => .timerALo (Field.periodALo d)
  | 0x26 => .timerB d
  | 0x27 => .timerCtrl (modeOf (Field.modeBits d)) (Field.resetB d) (Field.resetA d) (Field.enableB d) (Field.enableA d)
      (Field.loadB d) (Field.loadA d)
  | 0x28 =>
    match keyChan (Field.chsel d) with
    | some c => .keyOnOff c (Field.keys d)
    | none => .ignoreKeyChsel3 (d.extractLsb' 2 6)
  | 0x2A => .dacSample d
  | 0x2B => .dacEnable (Field.dacEnable d)
  | _ => .ignore .part0 a d

/-- Addresses `$30`..`$9F` (30_encoding.md R83). -/
def decodeOperator (part : Part) (a d : Byte) : Instr :=
  let s := Field.slot a
  let o := slotOp s
  match (Field.group a).toNat, chanOf part (Field.chan a) with
  | 3, some c => .dtMul c o (Field.dt d) (Field.mul d)
  | 3, none => .ignoreDtMulCh3 part s d
  | 4, some c => .tl c o (Field.tl d)
  | 4, none => .ignoreTlCh3 part s d
  | 5, some c => .rsAr c o (Field.rs d) (Field.ar d)
  | 5, none => .ignoreRsArCh3 part s d
  | 6, some c => .amD1r c o (Field.am d) (Field.d1r d)
  | 6, none => .ignoreAmD1rCh3 part s d
  | 7, some c => .d2r c o (Field.d2r d)
  | 7, none => .ignoreD2rCh3 part s d
  | 8, some c => .d1lRr c o (Field.d1l d) (Field.rr d)
  | 8, none => .ignoreD1lRrCh3 part s d
  | 9, some c => .ssgEg c o (Field.ssg d)
  | 9, none => .ignoreSsgEgCh3 part s d
  | _, _ => .ignore part a d

/-- Addresses `$A0`..`$B7` (30_encoding.md R84; `$B7` is the `a[1:0] = 3` address of the `$B4` group). -/
def decodeChannel (part : Part) (a d : Byte) : Instr :=
  let k := Field.chan a
  match (Field.chanGroup a).toNat with
  | 0x28 =>
    match chanOf part k with
    | some c => .fnumLo c d
    | none => .ignoreFnumLoCh3 part d
  | 0x29 =>
    match chanOf part k with
    | some c => .fnumHiBlock c (Field.block d) (Field.fnumHi d)
    | none => .ignoreFnumHiBlockCh3 part d
  | 0x2A =>
    match part, spOf k with
    | .part1, _ => .ignoreCh2OpFnumLoPart1 k d
    | .part0, some o => .ch2OpFnumLo o d
    | .part0, none => .ignoreCh2OpFnumLoSel3 d
  | 0x2B =>
    match part, spOf k with
    | .part1, _ => .ignoreCh2OpFnumHiBlockPart1 k d
    | .part0, some o => .ch2OpFnumHiBlock o (Field.block d) (Field.fnumHi d)
    | .part0, none => .ignoreCh2OpFnumHiBlockSel3 d
  | 0x2C =>
    match chanOf part k with
    | some c => .fbAlg c (Field.fb d) (Field.alg d)
    | none => .ignoreFbAlgCh3 part d
  | 0x2D =>
    match chanOf part k with
    | some c => .panAmsFms c (Field.panL d) (Field.panR d) (Field.ams d) (Field.fms d)
    | none => .ignorePanAmsFmsCh3 part d
  | _ => .ignore part a d

/-- The register write a part, an address and a data byte select: the most specific row of the opcode table (30_encoding.md
R82), by the address map of 20_memory.md R62. -/
def decodeRegFields (part : Part) (a d : Byte) : Instr :=
  let n := a.toNat
  if n < 0x20 then .ignore part a d
  else if n < 0x30 then
    match part with
    | .part0 => decodeGlobal a d
    | .part1 => .ignore part a d
  else if n < 0xA0 then decodeOperator part a d
  else if n < 0xB8 then decodeChannel part a d
  else .ignore part a d

/-- The register write of a format R word (30_encoding.md R81). -/
def decodeReg (w : BitVec 17) : Instr :=
  decodeRegFields (partOf (w.getLsbD 16)) (w.extractLsb' 8 8) (w.extractLsb' 0 8)

/-- An operation word of either format. -/
inductive OpWord where
  | port (w : BitVec 11)
  | reg (w : BitVec 17)
deriving DecidableEq, Repr

/-- The instruction of an operation word: every word has one (30_encoding.md R93). -/
def decode : OpWord → Instr
  | .port w => decodePort w
  | .reg w => decodeReg w

/-- The operation word that `w`, numbered as the opcode table numbers it, is: with at most 16 bits and nothing above bit 10 a
format P word, else a format R word (log 5). A number wider than format R is no operation word. -/
def OpWord.ofTable (nbits w : Nat) : Option OpWord :=
  if nbits ≤ 16 ∧ w < 2 ^ 11 then some (.port (BitVec.ofNat 11 w))
  else if w < 2 ^ 17 then some (.reg (BitVec.ofNat 17 w))
  else none

/-- The instruction the decoder reads from an opcode-table word; `none` where the number fits neither format. -/
def decodeTableWord (nbits w : Nat) : Option Instr := (OpWord.ofTable nbits w).map decode

/-! ## The opcode table as data -/

/-- A row of format R of spec/opcode_table.json. -/
structure Row where
  mnemonic  : String
  matchBits : BitVec 17
  mask      : BitVec 17
  rule      : Nat
deriving DecidableEq, Repr

/-- The word matches the row: `(W & mask) == match` (30_encoding.md R82). -/
def Row.covers (r : Row) (w : BitVec 17) : Bool := w &&& r.mask == r.matchBits

/-- The number of bits set in the row's mask. -/
def Row.width (r : Row) : Nat := ((List.range 17).filter (fun i => r.mask.getLsbD i)).length

def regTableGlobal : List Row :=
  [⟨"IGNORE", 0x0, 0x0, 301⟩,
   ⟨"LFO", 0x2200, 0x1ff00, 275⟩,
   ⟨"TIMER_A_HI", 0x2400, 0x1ff00, 276⟩,
   ⟨"TIMER_A_LO", 0x2500, 0x1ff00, 277⟩,
   ⟨"TIMER_B", 0x2600, 0x1ff00, 278⟩,
   ⟨"TIMER_CTRL", 0x2700, 0x1ff00, 279⟩,
   ⟨"KEY_ON_OFF", 0x2800, 0x1ff00, 283⟩,
   ⟨"DAC_SAMPLE", 0x2a00, 0x1ff00, 284⟩,
   ⟨"DAC_ENABLE", 0x2b00, 0x1ff00, 285⟩,
   ⟨"IGNORE_KEY_CHSEL3", 0x2803, 0x1ff03, 301⟩]

def regTableOperator : List Row :=
  [⟨"DT_MUL", 0x3000, 0xf000, 287⟩,
   ⟨"IGNORE_DT_MUL_CH3", 0x3300, 0xf300, 301⟩,
   ⟨"TL", 0x4000, 0xf000, 288⟩,
   ⟨"IGNORE_TL_CH3", 0x4300, 0xf300, 301⟩,
   ⟨"RS_AR", 0x5000, 0xf000, 289⟩,
   ⟨"IGNORE_RS_AR_CH3", 0x5300, 0xf300, 301⟩,
   ⟨"AM_D1R", 0x6000, 0xf000, 290⟩,
   ⟨"IGNORE_AM_D1R_CH3", 0x6300, 0xf300, 301⟩,
   ⟨"D2R", 0x7000, 0xf000, 291⟩,
   ⟨"IGNORE_D2R_CH3", 0x7300, 0xf300, 301⟩,
   ⟨"D1L_RR", 0x8000, 0xf000, 292⟩,
   ⟨"IGNORE_D1L_RR_CH3", 0x8300, 0xf300, 301⟩,
   ⟨"SSG_EG", 0x9000, 0xf000, 293⟩,
   ⟨"IGNORE_SSG_EG_CH3", 0x9300, 0xf300, 301⟩]

def regTableChannel : List Row :=
  [⟨"FNUM_LO", 0xa000, 0xfc00, 295⟩,
   ⟨"IGNORE_FNUM_LO_CH3", 0xa300, 0xff00, 301⟩,
   ⟨"FNUM_HI_BLOCK", 0xa400, 0xfc00, 296⟩,
   ⟨"IGNORE_FNUM_HI_BLOCK_CH3", 0xa700, 0xff00, 301⟩,
   ⟨"CH2_OP_FNUM_LO", 0xa800, 0x1fc00, 297⟩,
   ⟨"IGNORE_CH2_OP_FNUM_LO_PART1", 0x1a800, 0x1fc00, 301⟩,
   ⟨"IGNORE_CH2_OP_FNUM_LO_SEL3", 0xab00, 0x1ff00, 301⟩,
   ⟨"CH2_OP_FNUM_HI_BLOCK", 0xac00, 0x1fc00, 298⟩,
   ⟨"IGNORE_CH2_OP_FNUM_HI_BLOCK_PART1", 0x1ac00, 0x1fc00, 301⟩,
   ⟨"IGNORE_CH2_OP_FNUM_HI_BLOCK_SEL3", 0xaf00, 0x1ff00, 301⟩,
   ⟨"FB_ALG", 0xb000, 0xfc00, 299⟩,
   ⟨"IGNORE_FB_ALG_CH3", 0xb300, 0xff00, 301⟩,
   ⟨"PAN_AMS_FMS", 0xb400, 0xfc00, 300⟩,
   ⟨"IGNORE_PAN_AMS_FMS_CH3", 0xb700, 0xff00, 301⟩]

/-- The thirty-eight rows of format R. -/
def regTable : List Row := regTableGlobal ++ regTableOperator ++ regTableChannel

/-- The table's mnemonic of an instruction. -/
def Instr.mnemonic : Instr → String
  | .aw0 _ => "AW0"
  | .dw1 _ => "DW1"
  | .aw2 _ => "AW2"
  | .dw3 _ => "DW3"
  | .rd0 => "RD0"
  | .rd1 => "RD1"
  | .rd2 => "RD2"
  | .rd3 => "RD3"
  | .ignore _ _ _ => "IGNORE"
  | .lfo _ _ => "LFO"
  | .timerAHi _ => "TIMER_A_HI"
  | .timerALo _ => "TIMER_A_LO"
  | .timerB _ => "TIMER_B"
  | .timerCtrl _ _ _ _ _ _ _ => "TIMER_CTRL"
  | .keyOnOff _ _ => "KEY_ON_OFF"
  | .dacSample _ => "DAC_SAMPLE"
  | .dacEnable _ => "DAC_ENABLE"
  | .ignoreKeyChsel3 _ => "IGNORE_KEY_CHSEL3"
  | .dtMul _ _ _ _ => "DT_MUL"
  | .ignoreDtMulCh3 _ _ _ => "IGNORE_DT_MUL_CH3"
  | .tl _ _ _ => "TL"
  | .ignoreTlCh3 _ _ _ => "IGNORE_TL_CH3"
  | .rsAr _ _ _ _ => "RS_AR"
  | .ignoreRsArCh3 _ _ _ => "IGNORE_RS_AR_CH3"
  | .amD1r _ _ _ _ => "AM_D1R"
  | .ignoreAmD1rCh3 _ _ _ => "IGNORE_AM_D1R_CH3"
  | .d2r _ _ _ => "D2R"
  | .ignoreD2rCh3 _ _ _ => "IGNORE_D2R_CH3"
  | .d1lRr _ _ _ _ => "D1L_RR"
  | .ignoreD1lRrCh3 _ _ _ => "IGNORE_D1L_RR_CH3"
  | .ssgEg _ _ _ => "SSG_EG"
  | .ignoreSsgEgCh3 _ _ _ => "IGNORE_SSG_EG_CH3"
  | .fnumLo _ _ => "FNUM_LO"
  | .ignoreFnumLoCh3 _ _ => "IGNORE_FNUM_LO_CH3"
  | .fnumHiBlock _ _ _ => "FNUM_HI_BLOCK"
  | .ignoreFnumHiBlockCh3 _ _ => "IGNORE_FNUM_HI_BLOCK_CH3"
  | .ch2OpFnumLo _ _ => "CH2_OP_FNUM_LO"
  | .ignoreCh2OpFnumLoPart1 _ _ => "IGNORE_CH2_OP_FNUM_LO_PART1"
  | .ignoreCh2OpFnumLoSel3 _ => "IGNORE_CH2_OP_FNUM_LO_SEL3"
  | .ch2OpFnumHiBlock _ _ _ => "CH2_OP_FNUM_HI_BLOCK"
  | .ignoreCh2OpFnumHiBlockPart1 _ _ => "IGNORE_CH2_OP_FNUM_HI_BLOCK_PART1"
  | .ignoreCh2OpFnumHiBlockSel3 _ => "IGNORE_CH2_OP_FNUM_HI_BLOCK_SEL3"
  | .fbAlg _ _ _ => "FB_ALG"
  | .ignoreFbAlgCh3 _ _ => "IGNORE_FB_ALG_CH3"
  | .panAmsFms _ _ _ _ _ => "PAN_AMS_FMS"
  | .ignorePanAmsFmsCh3 _ _ => "IGNORE_PAN_AMS_FMS_CH3"

/-! ## Encoder, written from the same tables -/

/-- The part and the `a[1:0]` of a channel (30_encoding.md R83, R84). -/
def chanBits : ChIx → Part × BitVec 2
  | .ch0 => (.part0, 0)
  | .ch1 => (.part0, 1)
  | .ch2 => (.part0, 2)
  | .ch3 => (.part1, 0)
  | .ch4 => (.part1, 1)
  | .ch5 => (.part1, 2)

/-- The slot of an operator (30_encoding.md R83). -/
def opSlot : OpIx → BitVec 2
  | .op1 => 0
  | .op2 => 2
  | .op3 => 1
  | .op4 => 3

/-- The selector of an override operator (30_encoding.md R84). -/
def spSel : SpIx → BitVec 2
  | .op1 => 1
  | .op2 => 2
  | .op3 => 0

/-- The channel select of a `$28` write (30_encoding.md R88). -/
def keySel : ChIx → BitVec 3
  | .ch0 => 0
  | .ch1 => 1
  | .ch2 => 2
  | .ch3 => 4
  | .ch4 => 5
  | .ch5 => 6

/-- The mode bits of a `$27` write (30_encoding.md R87; Special is written as 1, log 11). -/
def modeBitsOf : Ch3Mode → BitVec 2
  | .normal => 0
  | .special => 1
  | .csm => 2

def bit (b : Bool) : BitVec 1 := BitVec.ofBool b

/-- A write to a per-operator register group. -/
def opWord (group : BitVec 4) (c : ChIx) (o : OpIx) (d : Byte) : BitVec 17 :=
  regWord (chanBits c).1 (group ++ opSlot o ++ (chanBits c).2) d

/-- A write to a per-operator register group at the channel position 3. -/
def opWordCh3 (group : BitVec 4) (part : Part) (slot : BitVec 2) (d : Byte) : BitVec 17 :=
  regWord part (group ++ slot ++ 3#2) d

/-- A write to a per-channel register. -/
def chWord (group : BitVec 6) (c : ChIx) (d : Byte) : BitVec 17 :=
  regWord (chanBits c).1 (group ++ (chanBits c).2) d

/-- A write to a per-channel register group of a part, by its selector bits. -/
def chWordSel (group : BitVec 6) (part : Part) (sel : BitVec 2) (d : Byte) : BitVec 17 :=
  regWord part (group ++ sel) d

/-- The word of a well-formed instruction; data bits that are no operand are 0 (30_encoding.md R80, R81, R86). -/
def encode : Instr → OpWord
  | .aw0 v => .port (portWord 0 v)
  | .dw1 v => .port (portWord 1 v)
  | .aw2 v => .port (portWord 2 v)
  | .dw3 v => .port (portWord 3 v)
  | .rd0 => .port (portWord 4 0)
  | .rd1 => .port (portWord 5 0)
  | .rd2 => .port (portWord 6 0)
  | .rd3 => .port (portWord 7 0)
  | .ignore part a d => .reg (regWord part a d)
  | .lfo en f => .reg (regWord .part0 0x22 (0#4 ++ bit en ++ f))
  | .timerAHi hi => .reg (regWord .part0 0x24 hi)
  | .timerALo lo => .reg (regWord .part0 0x25 (0#6 ++ lo))
  | .timerB p => .reg (regWord .part0 0x26 p)
  | .timerCtrl m rB rA eB eA lB lA =>
      .reg (regWord .part0 0x27 (modeBitsOf m ++ bit rB ++ bit rA ++ bit eB ++ bit eA ++ bit lB ++ bit lA))
  | .keyOnOff c keys => .reg (regWord .part0 0x28 (keys ++ 0#1 ++ keySel c))
  | .dacSample v => .reg (regWord .part0 0x2A v)
  | .dacEnable en => .reg (regWord .part0 0x2B (bit en ++ 0#7))
  | .ignoreKeyChsel3 rest => .reg (regWord .part0 0x28 (rest ++ 3#2))
  | .dtMul c o dt mul => .reg (opWord 3 c o (0#1 ++ dt ++ mul))
  | .ignoreDtMulCh3 p s d => .reg (opWordCh3 3 p s d)
  | .tl c o l => .reg (opWord 4 c o (0#1 ++ l))
  | .ignoreTlCh3 p s d => .reg (opWordCh3 4 p s d)
  | .rsAr c o rs ar => .reg (opWord 5 c o (rs ++ 0#1 ++ ar))
  | .ignoreRsArCh3 p s d => .reg (opWordCh3 5 p s d)
  | .amD1r c o am r => .reg (opWord 6 c o (bit am ++ 0#2 ++ r))
  | .ignoreAmD1rCh3 p s d => .reg (opWordCh3 6 p s d)
  | .d2r c o r => .reg (opWord 7 c o (0#3 ++ r))
  | .ignoreD2rCh3 p s d => .reg (opWordCh3 7 p s d)
  | .d1lRr c o l r => .reg (opWord 8 c o (l ++ r))
  | .ignoreD1lRrCh3 p s d => .reg (opWordCh3 8 p s d)
  | .ssgEg c o m => .reg (opWord 9 c o (0#4 ++ m))
  | .ignoreSsgEgCh3 p s d => .reg (opWordCh3 9 p s d)
  | .fnumLo c lo => .reg (chWord 0x28 c lo)
  | .ignoreFnumLoCh3 p d => .reg (chWordSel 0x28 p 3 d)
  | .fnumHiBlock c b hi => .reg (chWord 0x29 c (0#2 ++ b ++ hi))
  | .ignoreFnumHiBlockCh3 p d => .reg (chWordSel 0x29 p 3 d)
  | .ch2OpFnumLo o lo => .reg (chWordSel 0x2A .part0 (spSel o) lo)
  | .ignoreCh2OpFnumLoPart1 k d => .reg (chWordSel 0x2A .part1 k d)
  | .ignoreCh2OpFnumLoSel3 d => .reg (chWordSel 0x2A .part0 3 d)
  | .ch2OpFnumHiBlock o b hi => .reg (chWordSel 0x2B .part0 (spSel o) (0#2 ++ b ++ hi))
  | .ignoreCh2OpFnumHiBlockPart1 k d => .reg (chWordSel 0x2B .part1 k d)
  | .ignoreCh2OpFnumHiBlockSel3 d => .reg (chWordSel 0x2B .part0 3 d)
  | .fbAlg c fb alg => .reg (chWord 0x2C c (0#2 ++ fb ++ alg))
  | .ignoreFbAlgCh3 p d => .reg (chWordSel 0x2C p 3 d)
  | .panAmsFms c l r ams fms => .reg (chWord 0x2D c (bit l ++ bit r ++ ams ++ 0#1 ++ fms))
  | .ignorePanAmsFmsCh3 p d => .reg (chWordSel 0x2D p 3 d)

/-- The width the opcode table gives a word's format, in whole bytes. -/
def OpWord.nbits : OpWord → Nat
  | .port _ => 16
  | .reg _ => 24

/-- The word as the number the opcode table writes. -/
def OpWord.toNat : OpWord → Nat
  | .port w => w.toNat
  | .reg w => w.toNat

end Sys2Proof
end

