-- ==== Sys2Proof/Machine/State.lean ====
section
/-! DEFINITION. The machine's state as plain data (10_state.md), its state after power-on (70_reset_and_hazards.md R360), and
the reasons a step can stop. -/

namespace Sys2Proof.Machine

/-! ## Families of like things, one named field each -/

/-- One value per operator of a channel. -/
structure PerOp (α : Type) where
  op1 : α
  op2 : α
  op3 : α
  op4 : α
deriving DecidableEq, Repr

/-- One value per operator of channel 2 that has an override frequency (R47). -/
structure PerSp (α : Type) where
  op1 : α
  op2 : α
  op3 : α
deriving DecidableEq, Repr

/-- One value per channel. -/
structure PerCh (α : Type) where
  ch0 : α
  ch1 : α
  ch2 : α
  ch3 : α
  ch4 : α
  ch5 : α
deriving DecidableEq, Repr

/-! ## The block -/

/-- The state of an operator's envelope (R33). -/
inductive EgState where
  | attack | decay | sustain | release
deriving DecidableEq, Repr

/-- Operator state, `op[c][o]` (10_state.md R23..R36). -/
structure Operator where
  dt       : BitVec 3
  mul      : BitVec 4
  tl       : BitVec 7
  rs       : BitVec 2
  ar       : BitVec 5
  d1r      : BitVec 5
  d2r      : BitVec 5
  rr       : BitVec 4
  d1l      : BitVec 4
  am       : Bool
  ssg      : BitVec 4
  ssgInv   : Bool
  phase    : BitVec 20
  egState  : EgState
  level    : BitVec 10
  keyLatch : Bool
  hist0    : Int
  hist1    : Int
deriving DecidableEq, Repr

/-- Channel state, `ch[c]` (10_state.md R38..R41). -/
structure Channel where
  fnum  : BitVec 11
  block : BitVec 3
  alg   : BitVec 3
  fb    : BitVec 3
  panL  : Bool
  panR  : Bool
  ams   : BitVec 2
  fms   : BitVec 3
deriving DecidableEq, Repr

/-- LFO state (10_state.md R44): `lfoEnable`, `lfoFreq`, `lfoSub` (0..107), `lfoStep`, `lfoAm` (0..126). -/
structure Lfo where
  enable : Bool
  freq   : BitVec 3
  sub    : Nat
  step   : BitVec 7
  am     : Nat
deriving DecidableEq, Repr

/-- Timer A state (10_state.md R45): `periodA`, `cntA`, `loadA`, `enableA`, `ovA`. -/
structure TimerA where
  period : BitVec 10
  cnt    : BitVec 10
  load   : Bool
  enable : Bool
  ov     : Bool
deriving DecidableEq, Repr

/-- Timer B state (10_state.md R45): `periodB`, `cntB`, `subB`, `loadB`, `enableB`, `ovB`. -/
structure TimerB where
  period : BitVec 8
  cnt    : BitVec 8
  sub    : BitVec 4
  load   : Bool
  enable : Bool
  ov     : Bool
deriving DecidableEq, Repr

/-- The block: every field of 10_state.md but the host adapter's. -/
structure Chip where
  /-- R23..R36 -/
  ops         : PerCh (PerOp Operator)
  /-- R38..R41 -/
  ch          : PerCh Channel
  /-- R42, part 0 -/
  addrLatch0  : Byte
  /-- R42, part 1 -/
  addrLatch1  : Byte
  /-- R43 -/
  dacEnable   : Bool
  /-- R43 -/
  dacSample   : Byte
  /-- R44 -/
  lfo         : Lfo
  /-- R45 -/
  timerA      : TimerA
  /-- R45 -/
  timerB      : TimerB
  /-- R46 -/
  ch3Mode     : Ch3Mode
  /-- R47 -/
  spFnum      : PerSp (BitVec 11)
  /-- R47 -/
  spBlock     : PerSp (BitVec 3)
  /-- R48: block in bits 5..3, F-number bits 10..8 in bits 2..0 -/
  fnumHiLatch : BitVec 6
  /-- R48 -/
  ch3HiLatch  : BitVec 6
  /-- R49 -/
  csmPending  : Bool
  /-- R50 -/
  egCounter   : BitVec 12
  /-- R50: 0..2 -/
  egSub       : Nat
  /-- R51 -/
  busyUntil   : Nat
  /-- R52 -/
  statusCache : Byte
  /-- R52 -/
  statusTime  : Nat
  /-- R53 -/
  sampleCount : Nat
deriving DecidableEq, Repr

/-! ## The host's side -/

/-- The host adapter (10_state.md R57), outside the block. -/
structure Adapter where
  cycleAcc    : Nat
  resampleAcc : Nat
  outBuf      : List Int
deriving DecidableEq, Repr

/-- An operation the host has issued (00_scope.md R11; 47_tick_and_host.md R321, R323, R325; log 1). -/
inductive HostOp where
  /-- An operation word of the opcode table, `w` numbered as the table numbers it (30_encoding.md R80, R81). -/
  | word (nbits w : Nat)
  /-- `PortWrite(port, value)`. -/
  | portWrite (port : Nat) (value : Byte)
  /-- `PortRead(port)`. -/
  | portRead (port : Nat)
  /-- `TICK n`: `n` native ticks, the samples returned to the caller (47_tick_and_host.md R321). -/
  | tick (n : Nat)
  /-- `ADV n`: `Advance(cycles)` (47_tick_and_host.md R323). -/
  | advance (cycles : Nat)
  /-- `TakeBuffer()` (47_tick_and_host.md R325). -/
  | takeBuffer
deriving DecidableEq, Repr

/-- What an operation gives back to the host (log 2). -/
inductive Reply where
  | none
  | byte (v : Byte)
  | samples (l : List (Int × Int))
  | buffer (l : List Int)
deriving DecidableEq, Repr

/-- The whole machine: the block, the host adapter, the operations issued and not yet performed (oldest first), and what the last
operation that returned something returned. -/
structure State where
  chip    : Chip
  adapter : Adapter
  pending : List HostOp
  reply   : Reply
deriving DecidableEq, Repr

/-! ## Stops -/

/-- Faults: there is none, no operation of the block raises an exception (60_exceptions.md R340). -/
inductive Fault where
deriving DecidableEq, Repr

/-- Refusals: what a step may answer instead of a next state. -/
inductive Refusal where
  /-- An instruction the model has no meaning for; no arm of exec raises it. Safe. -/
  | notModelled (mnemonic : String)
  /-- Raised by step for a port access whose port number is outside 0..3: refused before it reaches the block, which keeps its
  state (60_exceptions.md R341). Safe. -/
  | portOutOfRange (port : Nat)
  /-- Raised by step for a queued number that is too wide for either format, so that it is no operation word (30_encoding.md
  R80, R81; log 5). Safe. -/
  | noOperationWord (nbits w : Nat)
deriving DecidableEq, Repr

/-! ## Power-on (70_reset_and_hazards.md R360) -/

/-- Every operator: Release at 0x3FF, all else 0. -/
def Operator.reset : Operator where
  dt := 0
  mul := 0
  tl := 0
  rs := 0
  ar := 0
  d1r := 0
  d2r := 0
  rr := 0
  d1l := 0
  am := false
  ssg := 0
  ssgInv := false
  phase := 0
  egState := .release
  level := 0x3FF
  keyLatch := false
  hist0 := 0
  hist1 := 0

/-- Every channel: both sides enabled, all else 0. -/
def Channel.reset : Channel where
  fnum := 0
  block := 0
  alg := 0
  fb := 0
  panL := true
  panR := true
  ams := 0
  fms := 0

/-- The four operators of a channel after power-on. -/
def PerOp.reset : PerOp Operator := ⟨.reset, .reset, .reset, .reset⟩

/-- The block after power-on. -/
def Chip.reset : Chip where
  ops := ⟨.reset, .reset, .reset, .reset, .reset, .reset⟩
  ch := ⟨.reset, .reset, .reset, .reset, .reset, .reset⟩
  addrLatch0 := 0
  addrLatch1 := 0
  dacEnable := false
  dacSample := 0
  lfo := ⟨false, 0, 0, 0, 0⟩
  timerA := ⟨0, 0, false, false, false⟩
  timerB := ⟨0, 0, 0, false, false, false⟩
  ch3Mode := .normal
  spFnum := ⟨0, 0, 0⟩
  spBlock := ⟨0, 0, 0⟩
  fnumHiLatch := 0
  ch3HiLatch := 0
  csmPending := false
  egCounter := 0
  egSub := 0
  busyUntil := 0
  statusCache := 0
  statusTime := 0
  sampleCount := 0

/-- The host adapter after power-on. -/
def Adapter.reset : Adapter where
  cycleAcc := 0
  resampleAcc := 0
  outBuf := []

/-- The machine after power-on: the block and the adapter as R360 says; no operation issued and nothing returned yet (log 1, log 2). -/
def State.reset : State where
  chip := .reset
  adapter := .reset
  pending := []
  reply := .none

end Sys2Proof.Machine
end

