-- ==== Sys2Proof/Machine/Ops.lean ====
section
/-! DEFINITION. The named operations over the register files: reading and writing one operator, one channel, one override
register, all operators at once; and the address latch. (The block has no memory, 20_memory.md R63, and takes no exception,
60_exceptions.md R340, R345: there is no memory operation and no trap entry to define.) -/

namespace Sys2Proof.Machine

/-! ## One value of a family -/

def PerOp.get {α : Type} (x : PerOp α) : OpIx → α
  | .op1 => x.op1
  | .op2 => x.op2
  | .op3 => x.op3
  | .op4 => x.op4

def PerOp.set {α : Type} (x : PerOp α) (o : OpIx) (v : α) : PerOp α :=
  match o with
  | .op1 => { x with op1 := v }
  | .op2 => { x with op2 := v }
  | .op3 => { x with op3 := v }
  | .op4 => { x with op4 := v }

/-- Every value replaced by `f` of its index and itself. -/
def PerOp.mapIdx {α β : Type} (f : OpIx → α → β) (x : PerOp α) : PerOp β :=
  ⟨f .op1 x.op1, f .op2 x.op2, f .op3 x.op3, f .op4 x.op4⟩

def PerSp.get {α : Type} (x : PerSp α) : SpIx → α
  | .op1 => x.op1
  | .op2 => x.op2
  | .op3 => x.op3

def PerSp.set {α : Type} (x : PerSp α) (o : SpIx) (v : α) : PerSp α :=
  match o with
  | .op1 => { x with op1 := v }
  | .op2 => { x with op2 := v }
  | .op3 => { x with op3 := v }

def PerCh.get {α : Type} (x : PerCh α) : ChIx → α
  | .ch0 => x.ch0
  | .ch1 => x.ch1
  | .ch2 => x.ch2
  | .ch3 => x.ch3
  | .ch4 => x.ch4
  | .ch5 => x.ch5

def PerCh.set {α : Type} (x : PerCh α) (c : ChIx) (v : α) : PerCh α :=
  match c with
  | .ch0 => { x with ch0 := v }
  | .ch1 => { x with ch1 := v }
  | .ch2 => { x with ch2 := v }
  | .ch3 => { x with ch3 := v }
  | .ch4 => { x with ch4 := v }
  | .ch5 => { x with ch5 := v }

/-- Every value replaced by `f` of its index and itself. -/
def PerCh.mapIdx {α β : Type} (f : ChIx → α → β) (x : PerCh α) : PerCh β :=
  ⟨f .ch0 x.ch0, f .ch1 x.ch1, f .ch2 x.ch2, f .ch3 x.ch3, f .ch4 x.ch4, f .ch5 x.ch5⟩

/-! ## The register files of the block -/

/-- `op[c][o]`. -/
def Chip.op (s : Chip) (c : ChIx) (o : OpIx) : Operator := (s.ops.get c).get o

/-- `op[c][o] <- x`. -/
def Chip.setOp (s : Chip) (c : ChIx) (o : OpIx) (x : Operator) : Chip :=
  { s with ops := s.ops.set c ((s.ops.get c).set o x) }

/-- `op[c][o] <- f op[c][o]`. -/
def Chip.modOp (s : Chip) (c : ChIx) (o : OpIx) (f : Operator → Operator) : Chip :=
  s.setOp c o (f (s.op c o))

/-- `op[c][o] <- f o op[c][o]` for the four operators of channel `c`; each reads only itself, so the order the spec processes
them in cannot be seen (log 8). -/
def Chip.mapChanOps (s : Chip) (c : ChIx) (f : OpIx → Operator → Operator) : Chip :=
  { s with ops := s.ops.set c ((s.ops.get c).mapIdx f) }

/-- `op[c][o] <- f c o op[c][o]` for all twenty-four operators (log 8). -/
def Chip.mapOps (s : Chip) (f : ChIx → OpIx → Operator → Operator) : Chip :=
  { s with ops := s.ops.mapIdx fun c x => x.mapIdx (f c) }

/-- `ch[c]`. -/
def Chip.chan (s : Chip) (c : ChIx) : Channel := s.ch.get c

/-- `ch[c] <- x`. -/
def Chip.setChan (s : Chip) (c : ChIx) (x : Channel) : Chip := { s with ch := s.ch.set c x }

/-- `ch[c] <- f ch[c]`. -/
def Chip.modChan (s : Chip) (c : ChIx) (f : Channel → Channel) : Chip := s.setChan c (f (s.chan c))

/-- `addrLatch[part]` (10_state.md R42). -/
def Chip.addrLatch (s : Chip) : Part → Byte
  | .part0 => s.addrLatch0
  | .part1 => s.addrLatch1

/-- `addrLatch[part] <- v`. -/
def Chip.setAddrLatch (s : Chip) (part : Part) (v : Byte) : Chip :=
  match part with
  | .part0 => { s with addrLatch0 := v }
  | .part1 => { s with addrLatch1 := v }

/-- An operation of the block alone: the host's side keeps its state. -/
def State.onChip (s : State) (f : Chip → Chip) : State := { s with chip := f s.chip }

end Sys2Proof.Machine
end

