-- ==== Sys2Proof/Machine/Operands.lean ====
section
/-! DEFINITION. Operands assembled from more than one register (30_encoding.md R90), and the effective frequency of an operator
(40_phase_generator.md R120). -/

namespace Sys2Proof.Machine

/-- `{hi, periodA[1:0]}` (46_register_interface.md R276). -/
def periodAWithHigh (period : BitVec 10) (hi : BitVec 8) : BitVec 10 := hi ++ period.extractLsb' 0 2

/-- `{periodA[9:2], lo}` (46_register_interface.md R277). -/
def periodAWithLow (period : BitVec 10) (lo : BitVec 2) : BitVec 10 := period.extractLsb' 2 8 ++ lo

/-- A high-byte latch, `{block[2:0], fnum[10:8]}` (10_state.md R48). -/
def hiLatch (block hi : BitVec 3) : BitVec 6 := block ++ hi

/-- `{latch[2:0], lo}`, the F-number a low-byte write assembles (30_encoding.md R90). -/
def fnumFrom (latch : BitVec 6) (lo : Byte) : BitVec 11 := latch.extractLsb' 0 3 ++ lo

/-- `latch[5:3]`, the block a low-byte write takes over (30_encoding.md R90). -/
def blockFrom (latch : BitVec 6) : BitVec 3 := latch.extractLsb' 3 3

/-- The override register of an operator of channel 2; operator 4 has none (10_state.md R47). -/
def spIx : OpIx → Option SpIx
  | .op1 => some .op1
  | .op2 => some .op2
  | .op3 => some .op3
  | .op4 => none

/-- The override frequency of an operator of channel 2. -/
def Chip.spFreq (s : Chip) (i : SpIx) : Freq := ⟨s.spFnum.get i, s.spBlock.get i⟩

/-- The frequency registers of a channel. -/
def Chip.chanFreq (s : Chip) (c : ChIx) : Freq := ⟨(s.chan c).fnum, (s.chan c).block⟩

/-- `FSrc(c, o)` (40_phase_generator.md R120): operators 1..3 of channel 2 use their override frequency in Special and CSM mode,
every other operator its channel's. -/
def Chip.fSrc (s : Chip) (c : ChIx) (o : OpIx) : Freq :=
  match c, s.ch3Mode, spIx o with
  | .ch2, .special, some i => s.spFreq i
  | .ch2, .csm, some i => s.spFreq i
  | _, _, _ => s.chanFreq c

end Sys2Proof.Machine
end

