-- ==== Sys2Proof/Machine/Lfo.lean ====
section
/-! DEFINITION. The low-frequency oscillator (44_lfo.md). -/

namespace Sys2Proof.Machine

/-- `LfoPeriod[lfoFreq]`, native ticks per LFO step (R230). -/
def lfoPeriod (freq : BitVec 3) : Nat := [108, 77, 71, 67, 62, 44, 8, 5].getD freq.toNat 0

/-- `Tri(s)`, the triangle (R232). -/
def tri (s : BitVec 7) : Nat := if s.toNat < 64 then 126 - 2 * s.toNat else 2 * (s.toNat - 64)

/-- `LfoStep` (R231). -/
def Lfo.tick (l : Lfo) : Lfo :=
  if l.enable = false then l
  else
    let sub := l.sub + 1
    if sub ≥ lfoPeriod l.freq then
      let step := l.step + 1
      { l with sub := 0, step := step, am := tri step }
    else { l with sub := sub }

/-- The LFO part of a native tick. -/
def Chip.lfoStep (s : Chip) : Chip := { s with lfo := s.lfo.tick }

/-- `AmsShift[ams]` (R233). -/
def amsShift (ams : BitVec 2) : Nat := [8, 3, 1, 0].getD ams.toNat 0

/-- `AmDelta(c)` (R234). -/
def Chip.amDelta (s : Chip) (c : ChIx) : Nat := s.lfo.am >>> amsShift (s.chan c).ams

/-- `PmBase[fms][q]` (R236). -/
def pmBaseTable : List (List Nat) :=
  [[0, 0, 0, 0, 0, 0, 0, 0],
   [0, 0, 0, 0, 1, 1, 1, 1],
   [0, 0, 1, 1, 2, 2, 2, 3],
   [0, 0, 2, 3, 4, 4, 5, 6],
   [0, 0, 4, 6, 8, 8, 10, 12],
   [0, 0, 8, 12, 16, 16, 20, 24],
   [0, 0, 16, 24, 32, 32, 40, 48],
   [0, 0, 32, 48, 64, 64, 80, 96]]

def pmBase (fms : BitVec 3) (q : Nat) : Nat := (pmBaseTable.getD fms.toNat []).getD q 0

/-- The quarter-step `q` of an LFO step: `p[2:0]`, mirrored in the second quarter of each half, with `p = lfoStep >> 2` (R237). -/
def quarterStep (step : BitVec 7) : Nat :=
  let p := step.extractLsb' 2 5
  let low := (p.extractLsb' 0 3).toNat
  if p.getLsbD 3 then 7 - low else low

/-- The sum over the set bits 4..10 of the F-number of the base shifted down (R237). -/
def pmSum (base : Nat) (f : BitVec 11) : Nat :=
  ([4, 5, 6, 7, 8, 9, 10].map fun b => if f.getLsbD b then base >>> (10 - b) else 0).sum

/-- `PmDelta` as a function of the LFO step, the channel's sensitivity and the operator's F-number (R237). -/
def pmDeltaOf (step : BitVec 7) (fms : BitVec 3) (f : BitVec 11) : Int :=
  let d : Int := pmSum (pmBase fms (quarterStep step)) f
  if (step.extractLsb' 2 5).getLsbD 4 then -d else d

/-- `PmDelta(c, o)` (R237), with the F-number of `FSrc(c, o)`. -/
def Chip.pmDelta (s : Chip) (c : ChIx) (o : OpIx) : Int :=
  pmDeltaOf s.lfo.step (s.chan c).fms (s.fSrc c o).fnum

end Sys2Proof.Machine
end

