-- ==== Sys2Proof/Machine/Phase.lean ====
section
/-! DEFINITION. The phase generator (40_phase_generator.md): key code, detune, increment, phase advance. -/

namespace Sys2Proof.Machine

/-- `KeyCode` of a frequency (R121), five bits: the block, then bit 1, then bit 0. -/
def keyCodeOf (q : Freq) : BitVec 5 :=
  let f11 := q.fnum.getLsbD 10
  let f10 := q.fnum.getLsbD 9
  let f9 := q.fnum.getLsbD 8
  let f8 := q.fnum.getLsbD 7
  let bit1 := f11
  let bit0 := (f11 && (f10 || f9 || f8)) || (!f11 && f10 && f9 && f8)
  q.block ++ BitVec.ofBool bit1 ++ BitVec.ofBool bit0

/-- `KeyCode(c, o)` (R121): the frequency `FSrc(c, o)`, never the modulated one. -/
def Chip.keyCode (s : Chip) (c : ChIx) (o : OpIx) : BitVec 5 := keyCodeOf (s.fSrc c o)

/-- `DetuneTable[m][k]` (R123). -/
def detuneTable : List (List Nat) :=
  [[0, 0, 0, 0, 0, 0, 0, 0, 0, 0, 0, 0, 0, 0, 0, 0] ++
   [0, 0, 0, 0, 0, 0, 0, 0, 0, 0, 0, 0, 0, 0, 0, 0],
   [0, 0, 0, 0, 1, 1, 1, 1, 1, 1, 1, 1, 2, 2, 2, 2] ++
   [2, 3, 3, 3, 4, 4, 4, 5, 5, 6, 6, 7, 8, 8, 8, 8],
   [1, 1, 1, 1, 2, 2, 2, 2, 2, 3, 3, 3, 4, 4, 4, 5] ++
   [5, 6, 6, 7, 8, 8, 9, 10, 11, 12, 13, 14, 16, 16, 16, 16],
   [2, 2, 2, 2, 2, 3, 3, 3, 4, 4, 4, 5, 5, 6, 6, 7] ++
   [8, 8, 9, 10, 11, 12, 13, 14, 16, 17, 19, 20, 22, 22, 22, 22]]

def detuneDelta (m : BitVec 2) (kc : BitVec 5) : Nat := (detuneTable.getD m.toNat []).getD kc.toNat 0

/-- `DetuneApply(x, dt, kc)` (R124): addition or subtraction of the table's value, wrapping in 17 bits. -/
def detuneApply (x : BitVec 17) (dt : BitVec 3) (kc : BitVec 5) : BitVec 17 :=
  let d := BitVec.ofNat 17 (detuneDelta (dt.extractLsb' 0 2) kc)
  if dt.getLsbD 2 then x - d else x + d

/-- The 17-bit base value before detune, from the 12-bit modulated F-number (R125). -/
def incBase (q : Freq) (delta : Int) : BitVec 17 :=
  let fm12 := BitVec.ofInt 12 ((q.fnum.toNat : Int) * 2 + delta)
  BitVec.ofNat 17 ((fm12.toNat <<< q.block.toNat) >>> 2)

/-- `Increment` as a function of the frequency, the modulation delta, detune and multiplier (R125). -/
def incrementOf (q : Freq) (delta : Int) (dt : BitVec 3) (mul : BitVec 4) : BitVec 20 :=
  let base := detuneApply (incBase q delta) dt (keyCodeOf q)
  if mul = 0 then BitVec.ofNat 20 (base.toNat >>> 1) else BitVec.ofNat 20 (base.toNat * mul.toNat)

/-- `Increment(c, o)` (R125). -/
def Chip.increment (s : Chip) (c : ChIx) (o : OpIx) : BitVec 20 :=
  incrementOf (s.fSrc c o) (s.pmDelta c o) (s.op c o).dt (s.op c o).mul

/-- The phase of an operator after this tick's advance, wrapping in 20 bits (R127). -/
def Chip.nextPhase (s : Chip) (c : ChIx) (o : OpIx) : BitVec 20 := (s.op c o).phase + s.increment c o

end Sys2Proof.Machine
end

