-- ==== Sys2Proof/Machine/Envelope.lean ====
section
/-! DEFINITION. The envelope generator (41_envelope_generator.md): rates, the four state steps, SSG-EG, key-on and key-off. -/

namespace Sys2Proof.Machine

/-! ## Rates -/

/-- `EffRate(r5, kc, rs)` (R142): register rate 0 is frozen whatever the key code. -/
def effRate (r5 : Nat) (kc : BitVec 5) (rs : BitVec 2) : Nat :=
  if r5 = 0 then 0 else min (2 * r5 + kc.toNat >>> (3 - rs.toNat)) 63

/-- The register rate used in each state (R141); the release rate is `2 × rr + 1`. -/
def Operator.rate5 (x : Operator) : EgState → Nat
  | .attack => x.ar.toNat
  | .decay => x.d1r.toNat
  | .sustain => x.d2r.toNat
  | .release => 2 * x.rr.toNat + 1

/-- The effective rate an operator has in a state. -/
def Operator.effRate (x : Operator) (st : EgState) (kc : BitVec 5) : Nat :=
  Machine.effRate (x.rate5 st) kc x.rs

/-- `PatLo[rate & 3]` (R144). -/
def patLo : List (List Nat) :=
  [[0, 1, 0, 1, 0, 1, 0, 1],
   [0, 1, 0, 1, 1, 1, 0, 1],
   [0, 1, 1, 1, 0, 1, 1, 1],
   [0, 1, 1, 1, 1, 1, 1, 1]]

/-- `PatHi[rate - 48]` (R144). -/
def patHi : List (List Nat) :=
  [[1, 1, 1, 1, 1, 1, 1, 1],
   [1, 1, 1, 2, 1, 1, 1, 2],
   [1, 2, 1, 2, 1, 2, 1, 2],
   [1, 2, 2, 2, 1, 2, 2, 2],
   [2, 2, 2, 2, 2, 2, 2, 2],
   [2, 2, 2, 4, 2, 2, 2, 4],
   [2, 4, 2, 4, 2, 4, 2, 4],
   [2, 4, 4, 4, 2, 4, 4, 4],
   [4, 4, 4, 4, 4, 4, 4, 4],
   [4, 4, 4, 8, 4, 4, 4, 8],
   [4, 8, 4, 8, 4, 8, 4, 8],
   [4, 8, 8, 8, 4, 8, 8, 8],
   [8, 8, 8, 8, 8, 8, 8, 8],
   [8, 8, 8, 8, 8, 8, 8, 8],
   [8, 8, 8, 8, 8, 8, 8, 8],
   [8, 8, 8, 8, 8, 8, 8, 8]]

/-- `EgInc(rate)` on an envelope tick whose counter is `cnt` (R143). -/
def egInc (rate : Nat) (cnt : BitVec 12) : Nat :=
  if rate < 4 then 0
  else if rate < 48 then
    let shift := 11 - rate >>> 2
    if cnt.toNat % 2 ^ shift ≠ 0 then 0
    else (patLo.getD (rate % 4) []).getD (cnt.toNat >>> shift % 8) 0
  else (patHi.getD (rate - 48) []).getD (cnt.toNat % 8) 0

/-- `SustainLevel(d1l)` (R145). -/
def sustainLevel (d1l : BitVec 4) : Nat := if d1l = 15 then 0x3E0 else d1l.toNat <<< 5

/-! ## Level arithmetic -/

/-- `min(level + inc, 0x3FF)`: the level saturates, it never wraps (R147; 00_scope.md R14). -/
def raiseLevel (level : BitVec 10) (inc : Nat) : BitVec 10 := BitVec.ofNat 10 (min (level.toNat + inc) 0x3FF)

/-- `mask_10(0x200 - level)`, the SSG-EG inversion (R151, R153). -/
def invertLevel (level : BitVec 10) : BitVec 10 := 0x200 - level

/-- SSG-EG is enabled: `ssg[3]`. -/
def Operator.ssgOn (x : Operator) : Bool := x.ssg.getLsbD 3

/-- The level a firing increment gives outside Attack: with SSG-EG four times the increment, and only below 0x200 (R147..R149). -/
def Operator.raised (x : Operator) (inc : Nat) : BitVec 10 :=
  if x.ssgOn then
    if x.level.toNat < 0x200 ∧ inc ≠ 0 then raiseLevel x.level (4 * inc) else x.level
  else if inc ≠ 0 then raiseLevel x.level inc else x.level

/-- `level + ((~level * inc) >> 4)`, the attack formula on integers (R146). -/
def attackLevel (level : BitVec 10) (inc : Nat) : Int :=
  (level.toNat : Int) + asr ((-(level.toNat : Int) - 1) * inc) 4

/-! ## The four states -/

/-- The attack is instant: the effective attack rate is at least 62 (R146, R150, R152). -/
def Operator.instantAttack (x : Operator) (kc : BitVec 5) : Bool := decide (x.effRate .attack kc ≥ 62)

/-- Level 0 in Decay. -/
def Operator.toDecay (x : Operator) : Operator := { x with level := 0, egState := .decay }

/-- `EgStep` in Attack (R146). -/
def Operator.attackStep (x : Operator) (kc : BitVec 5) (cnt : BitVec 12) : Operator :=
  if x.instantAttack kc then x.toDecay
  else
    let inc := egInc (x.effRate .attack kc) cnt
    if inc ≠ 0 then
      let v := attackLevel x.level inc
      if v ≤ 0 then x.toDecay else { x with level := BitVec.ofInt 10 v }
    else x

/-- The hold branch of the boundary action (R150). -/
def Operator.ssgHold (x : Operator) : Operator :=
  let inv := if x.ssg.getLsbD 1 then !x.ssg.getLsbD 2 else x.ssgInv
  { x with ssgInv := inv, level := if inv then x.level else 0x3FF }

/-- The repeat branch of the boundary action (R150). -/
def Operator.ssgRepeat (x : Operator) (kc : BitVec 5) : Operator :=
  let y := { x with ssgInv := if x.ssg.getLsbD 1 then !x.ssgInv else x.ssgInv }
  if y.instantAttack kc then y.toDecay else { y with egState := .attack }

/-- `SsgCheck(c, o)`, the SSG-EG boundary action (R150). -/
def Operator.ssgCheck (x : Operator) (kc : BitVec 5) : Operator :=
  if x.ssgOn ∧ (x.egState = .decay ∨ x.egState = .sustain) ∧ x.level.toNat ≥ 0x200 then
    if x.ssg.getLsbD 0 then x.ssgHold else x.ssgRepeat kc
  else x

/-- `EgStep` in Decay (R147): the sustain comparison comes first and is made on every envelope tick. -/
def Operator.decayStep (x : Operator) (kc : BitVec 5) (cnt : BitVec 12) : Operator :=
  let y : Operator :=
    if x.level.toNat ≥ sustainLevel x.d1l then { x with egState := .sustain }
    else { x with level := x.raised (egInc (x.effRate .decay kc) cnt) }
  y.ssgCheck kc

/-- `EgStep` in Sustain (R148). -/
def Operator.sustainStep (x : Operator) (kc : BitVec 5) (cnt : BitVec 12) : Operator :=
  let y : Operator := { x with level := x.raised (egInc (x.effRate .sustain kc) cnt) }
  y.ssgCheck kc

/-- `EgStep` in Release (R149): with SSG-EG a level at or above 0x200 becomes 0x3FF on every envelope tick. -/
def Operator.releaseStep (x : Operator) (kc : BitVec 5) (cnt : BitVec 12) : Operator :=
  let l := x.raised (egInc (x.effRate .release kc) cnt)
  { x with level := if x.ssgOn ∧ l.toNat ≥ 0x200 then 0x3FF else l }

/-- `EgStep` of one operator (R146..R149). -/
def Operator.egStep (x : Operator) (kc : BitVec 5) (cnt : BitVec 12) : Operator :=
  match x.egState with
  | .attack => x.attackStep kc cnt
  | .decay => x.decayStep kc cnt
  | .sustain => x.sustainStep kc cnt
  | .release => x.releaseStep kc cnt

/-- The envelope counter's next value: 4095 wraps to 1, skipping 0 (R140). -/
def egCounterNext (cnt : BitVec 12) : BitVec 12 := if cnt = 4095 then 1 else cnt + 1

/-- `EnvelopeTick` (R140): the counter first, then every operator with the new counter. -/
def Chip.envelopeTick (s : Chip) : Chip :=
  let s' := { s with egCounter := egCounterNext s.egCounter }
  s'.mapOps fun c o x => x.egStep (s'.keyCode c o) s'.egCounter

/-! ## Output, key-on, key-off -/

/-- `EgOut(c, o)` (R151). -/
def Operator.egOut (x : Operator) : BitVec 10 :=
  if x.ssgOn ∧ x.ssgInv = true ∧ x.egState ≠ .release then invertLevel x.level else x.level

/-- `KeyOn(c, o)` (R152); `kc` is `KeyCode(c, o)`. -/
def Operator.keyOn (x : Operator) (kc : BitVec 5) : Operator :=
  let y := { x with phase := 0, ssgInv := x.ssg.getLsbD 3 && x.ssg.getLsbD 2 }
  if y.instantAttack kc then y.toDecay else { y with egState := .attack }

/-- `KeyOff(c, o)` (R153). -/
def Operator.keyOff (x : Operator) : Operator :=
  if x.egState = .release then x
  else
    { x with
      level := if x.ssgOn ∧ x.ssgInv = true then invertLevel x.level else x.level
      egState := .release }

end Sys2Proof.Machine
end

