-- ==== Sys2Proof/Machine/Flags.lean ====
section
/-! DEFINITION. The block's status flags (10_state.md R54..R56): busy, and the two overflow flags with what sets and clears
them. -/

namespace Sys2Proof.Machine

/-- `busy = (sampleCount < busyUntil)`, computed when read (10_state.md R54). -/
def Chip.busy (s : Chip) : Bool := decide (s.sampleCount < s.busyUntil)

/-- `Status() = {busy, 0, 0, 0, 0, 0, ovB, ovA}` (10_state.md R56). -/
def Chip.status (s : Chip) : Byte :=
  BitVec.ofBool s.busy ++ 0#5 ++ BitVec.ofBool s.timerB.ov ++ BitVec.ofBool s.timerA.ov

/-- `busyUntil <- sampleCount + BUSY_SAMPLES` (46_register_interface.md R272). -/
def Chip.armBusy (busySamples : Nat) (s : Chip) : Chip := { s with busyUntil := s.sampleCount + busySamples }

/-- An overflow sets the flag only while it is enabled (45_timers_csm.md R252, R253). -/
def ovAfterOverflow (enable ov : Bool) : Bool := ov || enable

/-- A `$27` write clears the flag where its reset bit is 1 (46_register_interface.md R279). -/
def ovAfterReset (reset ov : Bool) : Bool := ov && !reset

end Sys2Proof.Machine
end

