-- ==== Sys2Proof/Machine/Timers.lean ====
section
/-! DEFINITION. The timers and the CSM auto-trigger (45_timers_csm.md). -/

namespace Sys2Proof.Machine

/-- `CsmKeyOn()` (R257): all four operators of channel 2, whatever their key latch. -/
def Chip.csmKeyOn (s : Chip) : Chip :=
  { s.mapChanOps .ch2 (fun o x => x.keyOn (s.keyCode .ch2 o)) with csmPending := true }

/-- `CsmRelease()` (R258): the operators of channel 2 whose key latch is 0. -/
def Chip.csmRelease (s : Chip) : Chip :=
  if s.csmPending then
    { s.mapChanOps .ch2 (fun _ x => if x.keyLatch = false then x.keyOff else x) with csmPending := false }
  else s

/-- Timer A overflows on this step: the count reaches `1024 - periodA` (R250, R252). -/
def TimerA.overflows (t : TimerA) : Bool := t.load && decide (t.cnt.toNat + 1 ≥ 1024 - t.period.toNat)

/-- Timer A's own fields after one step (R252): only the flag is gated by the enable bit. -/
def TimerA.tick (t : TimerA) : TimerA :=
  if t.load then
    if t.overflows then { t with cnt := 0, ov := ovAfterOverflow t.enable t.ov }
    else { t with cnt := t.cnt + 1 }
  else t

/-- `TimerAStep` (R252): the overflow triggers CSM whether or not the flag is enabled. -/
def Chip.timerAStep (s : Chip) : Chip :=
  let s' := { s with timerA := s.timerA.tick }
  if s.timerA.overflows ∧ s.ch3Mode = .csm then s'.csmKeyOn else s'

/-- Timer B's fields after one step: the prescaler, then on its wrap the count (R253). -/
def TimerB.tick (t : TimerB) : TimerB :=
  if t.load then
    let sub := t.sub + 1
    if sub = 0 then
      if t.cnt.toNat + 1 ≥ 256 - t.period.toNat then { t with sub := sub, cnt := 0, ov := ovAfterOverflow t.enable t.ov }
      else { t with sub := sub, cnt := t.cnt + 1 }
    else { t with sub := sub }
  else t

/-- `TimerBStep` (R253). -/
def Chip.timerBStep (s : Chip) : Chip := { s with timerB := s.timerB.tick }

/-- `TimerStep` (R251): release, Timer A, Timer B. -/
def Chip.timerStep (s : Chip) : Chip := s.csmRelease.timerAStep.timerBStep

end Sys2Proof.Machine
end

