-- ==== Sys2Proof/Machine/GlobalRegs.lean ====
section
/-! DEFINITION. Writes to the global registers `$22`..`$2B`, part 0 only (46_register_interface.md R275..R285). -/

namespace Sys2Proof.Machine

abbrev Result := Host.Outcome State Fault Refusal

/-! ## What each register write does to the block -/

/-- `$22` (R275): a write with the enable bit 0 resets the LFO counters, whether or not it was enabled (44_lfo.md R235). -/
def writeLfo (enable : Bool) (freq : BitVec 3) (s : Chip) : Chip :=
  if enable then { s with lfo := { s.lfo with enable := true, freq := freq } }
  else { s with lfo := { enable := false, freq := freq, sub := 0, step := 0, am := 0 } }

/-- `$24` (R276). -/
def writeTimerAHi (hi : BitVec 8) (s : Chip) : Chip :=
  { s with timerA := { s.timerA with period := periodAWithHigh s.timerA.period hi } }

/-- `$25` (R277). -/
def writeTimerALo (lo : BitVec 2) (s : Chip) : Chip :=
  { s with timerA := { s.timerA with period := periodAWithLow s.timerA.period lo } }

/-- `$26` (R278). -/
def writeTimerB (period : BitVec 8) (s : Chip) : Chip := { s with timerB := { s.timerB with period := period } }

/-- Timer A's part of `$27` (R279): the load edge clears the count (45_timers_csm.md R255). -/
def TimerA.control (reset enable load : Bool) (t : TimerA) : TimerA :=
  { t with
    cnt := if load && !t.load then 0 else t.cnt
    load := load
    enable := enable
    ov := ovAfterReset reset t.ov }

/-- Timer B's part of `$27` (R279): the load edge clears the count and the prescaler (45_timers_csm.md R255). -/
def TimerB.control (reset enable load : Bool) (t : TimerB) : TimerB :=
  { t with
    cnt := if load && !t.load then 0 else t.cnt
    sub := if load && !t.load then 0 else t.sub
    load := load
    enable := enable
    ov := ovAfterReset reset t.ov }

/-- `$27` (R279). -/
def writeTimerCtrl (mode : Ch3Mode) (resetB resetA enableB enableA loadB loadA : Bool) (s : Chip) : Chip :=
  { s with
    timerA := s.timerA.control resetA enableA loadA
    timerB := s.timerB.control resetB enableB loadB
    ch3Mode := mode }

/-- The key bit of an operator in `keys` (30_encoding.md R88). -/
def keyBit (keys : BitVec 4) : OpIx → Bool
  | .op1 => keys.getLsbD 0
  | .op2 => keys.getLsbD 1
  | .op3 => keys.getLsbD 2
  | .op4 => keys.getLsbD 3

/-- One operator's part of `$28` (R283): it acts on a change of the key latch only. -/
def Operator.keyWrite (x : Operator) (key : Bool) (kc : BitVec 5) : Operator :=
  match key, x.keyLatch with
  | true, false => { x with keyLatch := true }.keyOn kc
  | false, true => { x with keyLatch := false }.keyOff
  | _, _ => x

/-- `$28` with a channel selected (R283). -/
def writeKeys (c : ChIx) (keys : BitVec 4) (s : Chip) : Chip :=
  s.mapChanOps c fun o x => x.keyWrite (keyBit keys o) (s.keyCode c o)

/-- `$2A` (R284). -/
def writeDacSample (sample : Byte) (s : Chip) : Chip := { s with dacSample := sample }

/-- `$2B` (R285). -/
def writeDacEnable (enable : Bool) (s : Chip) : Chip := { s with dacEnable := enable }

/-! ## Meanings -/

/-- LFO (R275). -/
def execLfo (enable : Bool) (freq : BitVec 3) (s : State) : Result := .next (s.onChip (writeLfo enable freq))

/-- TIMER_A_HI (R276). -/
def execTimerAHi (hi : BitVec 8) (s : State) : Result := .next (s.onChip (writeTimerAHi hi))

/-- TIMER_A_LO (R277). -/
def execTimerALo (lo : BitVec 2) (s : State) : Result := .next (s.onChip (writeTimerALo lo))

/-- TIMER_B (R278). -/
def execTimerB (period : BitVec 8) (s : State) : Result := .next (s.onChip (writeTimerB period))

/-- TIMER_CTRL (R279). -/
def execTimerCtrl (mode : Ch3Mode) (resetB resetA enableB enableA loadB loadA : Bool) (s : State) : Result :=
  .next (s.onChip (writeTimerCtrl mode resetB resetA enableB enableA loadB loadA))

/-- KEY_ON_OFF (R283). -/
def execKeyOnOff (c : ChIx) (keys : BitVec 4) (s : State) : Result := .next (s.onChip (writeKeys c keys))

/-- DAC_SAMPLE (R284). -/
def execDacSample (sample : Byte) (s : State) : Result := .next (s.onChip (writeDacSample sample))

/-- DAC_ENABLE (R285). -/
def execDacEnable (enable : Bool) (s : State) : Result := .next (s.onChip (writeDacEnable enable))

end Sys2Proof.Machine
end

