-- ==== Sys2Proof/Machine/IgnoredRegs.lean ====
section
/-! DEFINITION. The ignored register writes (46_register_interface.md R301; 30_encoding.md R91): each changes no state. The busy
window is armed by the data-port write that carries the word (R272), not by the word (log 4). -/

namespace Sys2Proof.Machine

/-- An ignored register write (R301). -/
def ignored (s : State) : Result := .next s

/-- IGNORE: every word no other row matches (R301). -/
def execIgnore (_part : Part) (_addr _data : Byte) (s : State) : Result := ignored s

/-- IGNORE_KEY_CHSEL3: `$28` with `chsel[1:0] = 3`, the whole write (R301). -/
def execIgnoreKeyChsel3 (_rest : BitVec 6) (s : State) : Result := ignored s

/-- IGNORE_DT_MUL_CH3: `a[1:0] = 3` (R301). -/
def execIgnoreDtMulCh3 (_part : Part) (_slot : BitVec 2) (_data : Byte) (s : State) : Result := ignored s

/-- IGNORE_TL_CH3: `a[1:0] = 3` (R301). -/
def execIgnoreTlCh3 (_part : Part) (_slot : BitVec 2) (_data : Byte) (s : State) : Result := ignored s

/-- IGNORE_RS_AR_CH3: `a[1:0] = 3` (R301). -/
def execIgnoreRsArCh3 (_part : Part) (_slot : BitVec 2) (_data : Byte) (s : State) : Result := ignored s

/-- IGNORE_AM_D1R_CH3: `a[1:0] = 3` (R301). -/
def execIgnoreAmD1rCh3 (_part : Part) (_slot : BitVec 2) (_data : Byte) (s : State) : Result := ignored s

/-- IGNORE_D2R_CH3: `a[1:0] = 3` (R301). -/
def execIgnoreD2rCh3 (_part : Part) (_slot : BitVec 2) (_data : Byte) (s : State) : Result := ignored s

/-- IGNORE_D1L_RR_CH3: `a[1:0] = 3` (R301). -/
def execIgnoreD1lRrCh3 (_part : Part) (_slot : BitVec 2) (_data : Byte) (s : State) : Result := ignored s

/-- IGNORE_SSG_EG_CH3: `a[1:0] = 3` (R301). -/
def execIgnoreSsgEgCh3 (_part : Part) (_slot : BitVec 2) (_data : Byte) (s : State) : Result := ignored s

/-- IGNORE_FNUM_LO_CH3: `a[1:0] = 3` (R301). -/
def execIgnoreFnumLoCh3 (_part : Part) (_data : Byte) (s : State) : Result := ignored s

/-- IGNORE_FNUM_HI_BLOCK_CH3: `a[1:0] = 3` (R301). -/
def execIgnoreFnumHiBlockCh3 (_part : Part) (_data : Byte) (s : State) : Result := ignored s

/-- IGNORE_CH2_OP_FNUM_LO_PART1: part 1 (R301). -/
def execIgnoreCh2OpFnumLoPart1 (_sel : BitVec 2) (_data : Byte) (s : State) : Result := ignored s

/-- IGNORE_CH2_OP_FNUM_LO_SEL3: `a[1:0] = 3` (R301). -/
def execIgnoreCh2OpFnumLoSel3 (_data : Byte) (s : State) : Result := ignored s

/-- IGNORE_CH2_OP_FNUM_HI_BLOCK_PART1: part 1 (R301). -/
def execIgnoreCh2OpFnumHiBlockPart1 (_sel : BitVec 2) (_data : Byte) (s : State) : Result := ignored s

/-- IGNORE_CH2_OP_FNUM_HI_BLOCK_SEL3: `a[1:0] = 3` (R301). -/
def execIgnoreCh2OpFnumHiBlockSel3 (_data : Byte) (s : State) : Result := ignored s

/-- IGNORE_FB_ALG_CH3: `a[1:0] = 3` (R301). -/
def execIgnoreFbAlgCh3 (_part : Part) (_data : Byte) (s : State) : Result := ignored s

/-- IGNORE_PAN_AMS_FMS_CH3: `a[1:0] = 3` (R301). -/
def execIgnorePanAmsFmsCh3 (_part : Part) (_data : Byte) (s : State) : Result := ignored s

end Sys2Proof.Machine
end

