-- ==== Sys2Proof/Config.lean ====
section
/-! DEFINITION. The four parameters the spec leaves open (00_scope.md R9; 92_eei_decisions.md D27, D28, D45), as constants with
no body: nothing can be proved of their values beyond their types (log 7). -/

namespace Sys2Proof.Config

/-- `CPU_CLOCK_HZ`, the input clock in cycles per second; positive, or the resampler would not end (47_tick_and_host.md R324). -/
opaque cpuClockHz : ℕ+

/-- `OUTPUT_RATE_HZ`, the host output sample rate. -/
opaque outputRateHz : Nat

/-- `BUSY_SAMPLES`, the number of native samples the busy flag stays set after a data write. -/
opaque busySamples : Nat

/-- `STATUS_DECAY_SAMPLES`, the number of native samples a cached status byte stays readable on ports 1 and 3. -/
opaque statusDecaySamples : Nat

end Sys2Proof.Config
end

