-- ==== Sys2Proof/Machine/ChannelRegs.lean ====
section
/-! DEFINITION. Writes to the per-channel registers `$A0`..`$B6` (46_register_interface.md R294..R300). -/

namespace Sys2Proof.Machine

/-! ## What each register write does to the block -/

/-- `$A0`..`$A2` (R295): the latch is read, not cleared. -/
def writeFnumLo (c : ChIx) (lo : Byte) (s : Chip) : Chip :=
  s.modChan c fun x => { x with fnum := fnumFrom s.fnumHiLatch lo, block := blockFrom s.fnumHiLatch }

/-- `$A4`..`$A6` of either part (R296): one latch for all channels. -/
def writeFnumHiBlock (block hi : BitVec 3) (s : Chip) : Chip := { s with fnumHiLatch := hiLatch block hi }

/-- `$A8`..`$AA` (R297): stored whatever the mode of channel 2 is. -/
def writeSpFnumLo (o : SpIx) (lo : Byte) (s : Chip) : Chip :=
  { s with
    spFnum := s.spFnum.set o (fnumFrom s.ch3HiLatch lo)
    spBlock := s.spBlock.set o (blockFrom s.ch3HiLatch) }

/-- `$AC`..`$AE` (R298). -/
def writeSpFnumHiBlock (block hi : BitVec 3) (s : Chip) : Chip := { s with ch3HiLatch := hiLatch block hi }

/-- `$B0`..`$B2` (R299). -/
def writeFbAlg (c : ChIx) (fb alg : BitVec 3) (s : Chip) : Chip := s.modChan c fun x => { x with fb := fb, alg := alg }

/-- `$B4`..`$B6` (R300). -/
def writePanAmsFms (c : ChIx) (panL panR : Bool) (ams : BitVec 2) (fms : BitVec 3) (s : Chip) : Chip :=
  s.modChan c fun x => { x with panL := panL, panR := panR, ams := ams, fms := fms }

/-! ## Meanings -/

/-- FNUM_LO (R295). -/
def execFnumLo (c : ChIx) (lo : Byte) (s : State) : Result := .next (s.onChip (writeFnumLo c lo))

/-- FNUM_HI_BLOCK (R296): which channel's address was written does not matter. -/
def execFnumHiBlock (block hi : BitVec 3) (s : State) : Result := .next (s.onChip (writeFnumHiBlock block hi))

/-- CH2_OP_FNUM_LO (R297). -/
def execCh2OpFnumLo (o : SpIx) (lo : Byte) (s : State) : Result := .next (s.onChip (writeSpFnumLo o lo))

/-- CH2_OP_FNUM_HI_BLOCK (R298): which of `$AC`..`$AE` was written does not matter. -/
def execCh2OpFnumHiBlock (block hi : BitVec 3) (s : State) : Result := .next (s.onChip (writeSpFnumHiBlock block hi))

/-- FB_ALG (R299). -/
def execFbAlg (c : ChIx) (fb alg : BitVec 3) (s : State) : Result := .next (s.onChip (writeFbAlg c fb alg))

/-- PAN_AMS_FMS (R300). -/
def execPanAmsFms (c : ChIx) (panL panR : Bool) (ams : BitVec 2) (fms : BitVec 3) (s : State) : Result :=
  .next (s.onChip (writePanAmsFms c panL panR ams fms))

end Sys2Proof.Machine
end

