-- ==== Sys2Proof/Machine/OperatorRegs.lean ====
section
/-! DEFINITION. Writes to the per-operator registers `$30`..`$9F` (46_register_interface.md R286..R293). -/

namespace Sys2Proof.Machine

/-! ## What each register write does to its operator -/

/-- `$30` (R287). -/
def writeDtMul (c : ChIx) (o : OpIx) (dt : BitVec 3) (mul : BitVec 4) (s : Chip) : Chip :=
  s.modOp c o fun x => { x with dt := dt, mul := mul }

/-- `$40` (R288). -/
def writeTl (c : ChIx) (o : OpIx) (level : BitVec 7) (s : Chip) : Chip := s.modOp c o fun x => { x with tl := level }

/-- `$50` (R289). -/
def writeRsAr (c : ChIx) (o : OpIx) (rs : BitVec 2) (ar : BitVec 5) (s : Chip) : Chip :=
  s.modOp c o fun x => { x with rs := rs, ar := ar }

/-- `$60` (R290). -/
def writeAmD1r (c : ChIx) (o : OpIx) (am : Bool) (d1r : BitVec 5) (s : Chip) : Chip :=
  s.modOp c o fun x => { x with am := am, d1r := d1r }

/-- `$70` (R291). -/
def writeD2r (c : ChIx) (o : OpIx) (rate : BitVec 5) (s : Chip) : Chip := s.modOp c o fun x => { x with d2r := rate }

/-- `$80` (R292). -/
def writeD1lRr (c : ChIx) (o : OpIx) (d1l rr : BitVec 4) (s : Chip) : Chip :=
  s.modOp c o fun x => { x with d1l := d1l, rr := rr }

/-- `$90` (R293): `ssgInv` keeps its value (41_envelope_generator.md R154). -/
def writeSsg (c : ChIx) (o : OpIx) (ssg : BitVec 4) (s : Chip) : Chip := s.modOp c o fun x => { x with ssg := ssg }

/-! ## Meanings -/

/-- DT_MUL (R287). -/
def execDtMul (c : ChIx) (o : OpIx) (dt : BitVec 3) (mul : BitVec 4) (s : State) : Result :=
  .next (s.onChip (writeDtMul c o dt mul))

/-- TL (R288). -/
def execTl (c : ChIx) (o : OpIx) (level : BitVec 7) (s : State) : Result := .next (s.onChip (writeTl c o level))

/-- RS_AR (R289). -/
def execRsAr (c : ChIx) (o : OpIx) (rs : BitVec 2) (ar : BitVec 5) (s : State) : Result :=
  .next (s.onChip (writeRsAr c o rs ar))

/-- AM_D1R (R290). -/
def execAmD1r (c : ChIx) (o : OpIx) (am : Bool) (d1r : BitVec 5) (s : State) : Result :=
  .next (s.onChip (writeAmD1r c o am d1r))

/-- D2R (R291). -/
def execD2r (c : ChIx) (o : OpIx) (rate : BitVec 5) (s : State) : Result := .next (s.onChip (writeD2r c o rate))

/-- D1L_RR (R292). -/
def execD1lRr (c : ChIx) (o : OpIx) (d1l rr : BitVec 4) (s : State) : Result := .next (s.onChip (writeD1lRr c o d1l rr))

/-- SSG_EG (R293). -/
def execSsgEg (c : ChIx) (o : OpIx) (ssg : BitVec 4) (s : State) : Result := .next (s.onChip (writeSsg c o ssg))

end Sys2Proof.Machine
end

