-- ==== Sys2Proof/Machine/Ports.lean ====
section
/-! DEFINITION. The eight port operations (46_register_interface.md R270..R273) and the register write a data write performs
(R274, R286, R294). -/

namespace Sys2Proof.Machine

/-! ## Register write dispatch -/

/-- The global registers of part 0, by address (R274). -/
def globalWrite (a d : Byte) (s : Chip) : Chip :=
  match a.toNat with
  | 0x22 => writeLfo (Field.lfoEnable d) (Field.lfoFreq d) s
  | 0x24 => writeTimerAHi d s
  | 0x25 => writeTimerALo (Field.periodALo d) s
  | 0x26 => writeTimerB d s
  | 0x27 =>
    writeTimerCtrl (modeOf (Field.modeBits d)) (Field.resetB d) (Field.resetA d) (Field.enableB d) (Field.enableA d)
      (Field.loadB d) (Field.loadA d) s
  | 0x28 =>
    match keyChan (Field.chsel d) with
    | some c => writeKeys c (Field.keys d) s
    | none => s
  | 0x2A => writeDacSample d s
  | 0x2B => writeDacEnable (Field.dacEnable d) s
  | _ => s

/-- The per-operator registers (R286). -/
def operatorWrite (part : Part) (a d : Byte) (s : Chip) : Chip :=
  match chanOf part (Field.chan a) with
  | none => s
  | some c =>
    let o := slotOp (Field.slot a)
    match (Field.group a).toNat with
    | 3 => writeDtMul c o (Field.dt d) (Field.mul d) s
    | 4 => writeTl c o (Field.tl d) s
    | 5 => writeRsAr c o (Field.rs d) (Field.ar d) s
    | 6 => writeAmD1r c o (Field.am d) (Field.d1r d) s
    | 7 => writeD2r c o (Field.d2r d) s
    | 8 => writeD1lRr c o (Field.d1l d) (Field.rr d) s
    | 9 => writeSsg c o (Field.ssg d) s
    | _ => s

/-- The override registers of channel 2, on part 0 only (R297, R298): the selector must name an operator. -/
def overrideWrite (part : Part) (a : Byte) (write : SpIx → Chip → Chip) (s : Chip) : Chip :=
  match part, spOf (Field.chan a) with
  | .part0, some o => write o s
  | _, _ => s

/-- The per-channel registers (R294). -/
def channelWrite (part : Part) (a d : Byte) (s : Chip) : Chip :=
  match chanOf part (Field.chan a) with
  | none => s
  | some c =>
    match (Field.chanGroup a).toNat with
    | 0x28 => writeFnumLo c d s
    | 0x29 => writeFnumHiBlock (Field.block d) (Field.fnumHi d) s
    | 0x2A => overrideWrite part a (fun o => writeSpFnumLo o d) s
    | 0x2B => overrideWrite part a (fun _ => writeSpFnumHiBlock (Field.block d) (Field.fnumHi d)) s
    | 0x2C => writeFbAlg c (Field.fb d) (Field.alg d) s
    | 0x2D => writePanAmsFms c (Field.panL d) (Field.panR d) (Field.ams d) (Field.fms d) s
    | _ => s

/-- `RegWrite(part, a, d)` (R274). -/
def regWrite (part : Part) (a d : Byte) (s : Chip) : Chip :=
  let n := a.toNat
  if 0x20 ≤ n ∧ n ≤ 0x2F then
    match part with
    | .part0 => globalWrite a d s
    | .part1 => s
  else if 0x30 ≤ n ∧ n ≤ 0x9F then operatorWrite part a d s
  else if 0xA0 ≤ n ∧ n ≤ 0xB6 then channelWrite part a d s
  else s

/-- A data write (R272): the busy window first, then the register write the part's latch addresses. -/
def dataWrite (busySamples : Nat) (part : Part) (v : Byte) (s : Chip) : Chip :=
  regWrite part (s.addrLatch part) v (s.armBusy busySamples)

/-! ## Status reads -/

/-- What a live status read leaves behind (R271): the status byte and the time in the cache. -/
def Chip.cacheStatus (s : Chip) : Chip := { s with statusCache := s.status, statusTime := s.sampleCount }

/-- A live status read (R271): the byte returned is the status, and it is cached. -/
def liveStatusRead (s : State) : State := { s with chip := s.chip.cacheStatus, reply := .byte s.chip.status }

/-- The byte a cached status read returns (R273): `sampleCount - statusTime < STATUS_DECAY_SAMPLES`, on integers. -/
def Chip.cachedStatus (statusDecaySamples : Nat) (s : Chip) : Byte :=
  if s.sampleCount < s.statusTime + statusDecaySamples then s.statusCache else 0

/-- A cached status read (R273): nothing of the block changes. -/
def cachedStatusRead (statusDecaySamples : Nat) (s : State) : State :=
  { s with reply := .byte (s.chip.cachedStatus statusDecaySamples) }

/-! ## Meanings -/

/-- AW0 (R270). -/
def execAw0 (v : Byte) (s : State) : Result := .next (s.onChip fun k => k.setAddrLatch .part0 v)

/-- AW2 (R270). -/
def execAw2 (v : Byte) (s : State) : Result := .next (s.onChip fun k => k.setAddrLatch .part1 v)

/-- DW1 (R272). -/
def execDw1 (v : Byte) (s : State) : Result := .next (s.onChip (dataWrite Config.busySamples .part0 v))

/-- DW3 (R272). -/
def execDw3 (v : Byte) (s : State) : Result := .next (s.onChip (dataWrite Config.busySamples .part1 v))

/-- RD0 (R271). -/
def execRd0 (s : State) : Result := .next (liveStatusRead s)

/-- RD2 (R271): exactly as port 0. -/
def execRd2 (s : State) : Result := .next (liveStatusRead s)

/-- RD1 (R273). -/
def execRd1 (s : State) : Result := .next (cachedStatusRead Config.statusDecaySamples s)

/-- RD3 (R273). -/
def execRd3 (s : State) : Result := .next (cachedStatusRead Config.statusDecaySamples s)

end Sys2Proof.Machine
end

