-- ==== Sys2Proof/Machine/Dispatch.lean ====
section
/-! DEFINITION. The meaning of every instruction: one arm per row of spec/opcode_table.json. -/

namespace Sys2Proof.Machine

def exec (i : Instr) (s : State) : Host.Outcome State Fault Refusal :=
  match i with
  | .aw0 v => Sys2Proof.Machine.execAw0 v s
  | .dw1 v => Sys2Proof.Machine.execDw1 v s
  | .aw2 v => Sys2Proof.Machine.execAw2 v s
  | .dw3 v => Sys2Proof.Machine.execDw3 v s
  | .rd0 => Sys2Proof.Machine.execRd0 s
  | .rd1 => Sys2Proof.Machine.execRd1 s
  | .rd2 => Sys2Proof.Machine.execRd2 s
  | .rd3 => Sys2Proof.Machine.execRd3 s
  | .ignore part addr data => Sys2Proof.Machine.execIgnore part addr data s
  | .lfo enable freq => Sys2Proof.Machine.execLfo enable freq s
  | .timerAHi hi => Sys2Proof.Machine.execTimerAHi hi s
  | .timerALo lo => Sys2Proof.Machine.execTimerALo lo s
  | .timerB period => Sys2Proof.Machine.execTimerB period s
  | .timerCtrl mode resetB resetA enableB enableA loadB loadA => Sys2Proof.Machine.execTimerCtrl mode resetB resetA enableB enableA loadB loadA s
  | .keyOnOff c keys => Sys2Proof.Machine.execKeyOnOff c keys s
  | .dacSample sample => Sys2Proof.Machine.execDacSample sample s
  | .dacEnable enable => Sys2Proof.Machine.execDacEnable enable s
  | .ignoreKeyChsel3 rest => Sys2Proof.Machine.execIgnoreKeyChsel3 rest s
  | .dtMul c o dt mul => Sys2Proof.Machine.execDtMul c o dt mul s
  | .ignoreDtMulCh3 part slot data => Sys2Proof.Machine.execIgnoreDtMulCh3 part slot data s
  | .tl c o level => Sys2Proof.Machine.execTl c o level s
  | .ignoreTlCh3 part slot data => Sys2Proof.Machine.execIgnoreTlCh3 part slot data s
  | .rsAr c o rs ar => Sys2Proof.Machine.execRsAr c o rs ar s
  | .ignoreRsArCh3 part slot data => Sys2Proof.Machine.execIgnoreRsArCh3 part slot data s
  | .amD1r c o am d1r => Sys2Proof.Machine.execAmD1r c o am d1r s
  | .ignoreAmD1rCh3 part slot data => Sys2Proof.Machine.execIgnoreAmD1rCh3 part slot data s
  | .d2r c o rate => Sys2Proof.Machine.execD2r c o rate s
  | .ignoreD2rCh3 part slot data => Sys2Proof.Machine.execIgnoreD2rCh3 part slot data s
  | .d1lRr c o d1l rr => Sys2Proof.Machine.execD1lRr c o d1l rr s
  | .ignoreD1lRrCh3 part slot data => Sys2Proof.Machine.execIgnoreD1lRrCh3 part slot data s
  | .ssgEg c o ssg => Sys2Proof.Machine.execSsgEg c o ssg s
  | .ignoreSsgEgCh3 part slot data => Sys2Proof.Machine.execIgnoreSsgEgCh3 part slot data s
  | .fnumLo c lo => Sys2Proof.Machine.execFnumLo c lo s
  | .ignoreFnumLoCh3 part data => Sys2Proof.Machine.execIgnoreFnumLoCh3 part data s
  | .fnumHiBlock _ block hi => Sys2Proof.Machine.execFnumHiBlock block hi s
  | .ignoreFnumHiBlockCh3 part data => Sys2Proof.Machine.execIgnoreFnumHiBlockCh3 part data s
  | .ch2OpFnumLo o lo => Sys2Proof.Machine.execCh2OpFnumLo o lo s
  | .ignoreCh2OpFnumLoPart1 sel data => Sys2Proof.Machine.execIgnoreCh2OpFnumLoPart1 sel data s
  | .ignoreCh2OpFnumLoSel3 data => Sys2Proof.Machine.execIgnoreCh2OpFnumLoSel3 data s
  | .ch2OpFnumHiBlock _ block hi => Sys2Proof.Machine.execCh2OpFnumHiBlock block hi s
  | .ignoreCh2OpFnumHiBlockPart1 sel data => Sys2Proof.Machine.execIgnoreCh2OpFnumHiBlockPart1 sel data s
  | .ignoreCh2OpFnumHiBlockSel3 data => Sys2Proof.Machine.execIgnoreCh2OpFnumHiBlockSel3 data s
  | .fbAlg c fb alg => Sys2Proof.Machine.execFbAlg c fb alg s
  | .ignoreFbAlgCh3 part data => Sys2Proof.Machine.execIgnoreFbAlgCh3 part data s
  | .panAmsFms c panL panR ams fms => Sys2Proof.Machine.execPanAmsFms c panL panR ams fms s
  | .ignorePanAmsFmsCh3 part data => Sys2Proof.Machine.execIgnorePanAmsFmsCh3 part data s

end Sys2Proof.Machine
end

