-- ==== Sys2Proof/Machine/Output.lean ====
section
/-! DEFINITION. The operator output stage (42_operator_output.md): the two tables, the phase index, the combined attenuation,
the conversion to a signed sample. -/

namespace Sys2Proof.Machine

/-! ## Tables -/

/-- `LogSin[i]`, the quarter-wave log-sine table (R180) (entries 0..127, sixteen a row). -/
def logSinLo : List (List Nat) :=
  [[2137, 1731, 1543, 1419, 1326, 1252, 1190, 1137, 1091, 1050, 1013, 979, 949, 920, 894, 869],
   [846, 825, 804, 785, 767, 749, 732, 717, 701, 687, 672, 659, 646, 633, 621, 609],
   [598, 587, 576, 566, 556, 546, 536, 527, 518, 509, 501, 492, 484, 476, 468, 461],
   [453, 446, 439, 432, 425, 418, 411, 405, 399, 392, 386, 380, 375, 369, 363, 358],
   [352, 347, 341, 336, 331, 326, 321, 316, 311, 307, 302, 297, 293, 289, 284, 280],
   [276, 271, 267, 263, 259, 255, 251, 248, 244, 240, 236, 233, 229, 226, 222, 219],
   [215, 212, 209, 205, 202, 199, 196, 193, 190, 187, 184, 181, 178, 175, 172, 169],
   [167, 164, 161, 159, 156, 153, 151, 148, 146, 143, 141, 138, 136, 134, 131, 129]]

/-- `LogSin[i]`, the quarter-wave log-sine table (R180) (entries 128..255, sixteen a row). -/
def logSinHi : List (List Nat) :=
  [[127, 125, 122, 120, 118, 116, 114, 112, 110, 108, 106, 104, 102, 100, 98, 96],
   [94, 92, 91, 89, 87, 85, 83, 82, 80, 78, 77, 75, 74, 72, 70, 69],
   [67, 66, 64, 63, 62, 60, 59, 57, 56, 55, 53, 52, 51, 49, 48, 47],
   [46, 45, 43, 42, 41, 40, 39, 38, 37, 36, 35, 34, 33, 32, 31, 30],
   [29, 28, 27, 26, 25, 24, 23, 23, 22, 21, 20, 20, 19, 18, 17, 17],
   [16, 15, 15, 14, 13, 13, 12, 12, 11, 10, 10, 9, 9, 8, 8, 7],
   [7, 7, 6, 6, 5, 5, 5, 4, 4, 4, 3, 3, 3, 2, 2, 2],
   [2, 1, 1, 1, 1, 1, 1, 1, 0, 0, 0, 0, 0, 0, 0, 0]]

/-- `Pow2[f]`, the log-to-linear table (R182) (entries 0..127, sixteen a row). -/
def pow2Lo : List (List Nat) :=
  [[2042, 2037, 2031, 2026, 2020, 2015, 2010, 2004, 1999, 1993, 1988, 1983, 1977, 1972, 1966, 1961],
   [1956, 1951, 1945, 1940, 1935, 1930, 1924, 1919, 1914, 1909, 1904, 1898, 1893, 1888, 1883, 1878],
   [1873, 1868, 1863, 1858, 1853, 1848, 1843, 1838, 1833, 1828, 1823, 1818, 1813, 1808, 1803, 1798],
   [1794, 1789, 1784, 1779, 1774, 1769, 1765, 1760, 1755, 1750, 1746, 1741, 1736, 1732, 1727, 1722],
   [1717, 1713, 1708, 1704, 1699, 1694, 1690, 1685, 1681, 1676, 1672, 1667, 1663, 1658, 1654, 1649],
   [1645, 1640, 1636, 1631, 1627, 1623, 1618, 1614, 1609, 1605, 1601, 1596, 1592, 1588, 1584, 1579],
   [1575, 1571, 1566, 1562, 1558, 1554, 1550, 1545, 1541, 1537, 1533, 1529, 1525, 1520, 1516, 1512],
   [1508, 1504, 1500, 1496, 1492, 1488, 1484, 1480, 1476, 1472, 1468, 1464, 1460, 1456, 1452, 1448]]

/-- `Pow2[f]`, the log-to-linear table (R182) (entries 128..255, sixteen a row). -/
def pow2Hi : List (List Nat) :=
  [[1444, 1440, 1436, 1433, 1429, 1425, 1421, 1417, 1413, 1409, 1406, 1402, 1398, 1394, 1391, 1387],
   [1383, 1379, 1376, 1372, 1368, 1364, 1361, 1357, 1353, 1350, 1346, 1342, 1339, 1335, 1332, 1328],
   [1324, 1321, 1317, 1314, 1310, 1307, 1303, 1300, 1296, 1292, 1289, 1286, 1282, 1279, 1275, 1272],
   [1268, 1265, 1261, 1258, 1255, 1251, 1248, 1244, 1241, 1238, 1234, 1231, 1228, 1224, 1221, 1218],
   [1214, 1211, 1208, 1205, 1201, 1198, 1195, 1192, 1188, 1185, 1182, 1179, 1176, 1172, 1169, 1166],
   [1163, 1160, 1157, 1154, 1150, 1147, 1144, 1141, 1138, 1135, 1132, 1129, 1126, 1123, 1120, 1117],
   [1114, 1111, 1108, 1105, 1102, 1099, 1096, 1093, 1090, 1087, 1084, 1081, 1078, 1075, 1072, 1069],
   [1066, 1064, 1061, 1058, 1055, 1052, 1049, 1046, 1044, 1041, 1038, 1035, 1032, 1030, 1027, 1024]]

/-- `LogSin[i]` (R180). -/
def logSin (i : BitVec 8) : Nat := ((logSinLo ++ logSinHi).getD (i.toNat / 16) []).getD (i.toNat % 16) 0

/-- `Pow2[f]` (R182). -/
def pow2 (f : Nat) : Nat := ((pow2Lo ++ pow2Hi).getD (f / 16) []).getD (f % 16) 0

/-! ## Phase index -/

/-- `idx = mask_10((phase >> 10) + m)` (R181). -/
def phaseIndex (phase : BitVec 20) (m : Int) : BitVec 10 := BitVec.ofInt 10 (((phase.toNat >>> 10 : Nat) : Int) + m)

/-- `q`, the table index of a phase index: read backwards in the second and fourth quarter (R181). -/
def quarterIndex (idx : BitVec 10) : BitVec 8 :=
  let low := idx.extractLsb' 0 8
  if idx.getLsbD 8 then low ^^^ 0xFF else low

/-! ## Output conversion -/

/-- The magnitude of `OpOut` (R183): `(Pow2[fp] << 2) >> ip`. -/
def opMag (q : BitVec 8) (att : Nat) : Nat :=
  let lvl := logSin q + att <<< 2
  (pow2 (lvl % 256) <<< 2) >>> (lvl >>> 8)

/-- `OpOut(idx, att)` (R183). -/
def opOut (idx : BitVec 10) (att : Nat) : Int :=
  let mag : Int := opMag (quarterIndex idx) att
  if idx.getLsbD 9 then -mag else mag

/-! ## Combined attenuation -/

/-- `TlAtt(tl) = tl << 3` (R184). -/
def tlAtt (tl : BitVec 7) : Nat := tl.toNat <<< 3

/-- `Att` as a function of the operator and its channel's `AmDelta` (R185). -/
def attOf (x : Operator) (amDelta : Nat) : Nat :=
  let a := min (tlAtt x.tl + x.egOut.toNat) 0x3FF
  if x.am then min (a + amDelta) 0x3FF else a

/-- `Att(c, o)` (R185). -/
def Chip.att (s : Chip) (c : ChIx) (o : OpIx) : Nat := attOf (s.op c o) (s.amDelta c)

/-! ## Feedback and history -/

/-- `Feedback` as a function of the level and operator 1's history (R187). -/
def feedbackOf (fb : BitVec 3) (hist0 hist1 : Int) : Int :=
  if fb = 0 then 0 else asr (hist0 + hist1) (10 - fb.toNat)

/-- `Feedback(c)`, the modulation input of operator 1 (R187). -/
def Chip.feedback (s : Chip) (c : ChIx) : Int :=
  feedbackOf (s.chan c).fb (s.op c .op1).hist0 (s.op c .op1).hist1

/-- The output of `OpEval(c, o, m)` (R189), read at the phase already advanced on this tick. -/
def Chip.opEval (s : Chip) (c : ChIx) (o : OpIx) (m : Int) : Int :=
  opOut (phaseIndex (s.nextPhase c o) m) (s.att c o)

/-- What one tick writes to an operator: the advanced phase (R127) and the shifted history (R188). -/
def Operator.record (x : Operator) (phase : BitVec 20) (out : Int) : Operator :=
  { x with phase := phase, hist1 := x.hist0, hist0 := out }

end Sys2Proof.Machine
end

