-- ==== Sys2Proof/Machine/Router.lean ====
section
/-! DEFINITION. The algorithm router, the DAC override, the ladder and the mix (43_algorithm_router.md). -/

namespace Sys2Proof.Machine

/-- `Mods(alg, o)`: the operators whose output modulates operator `o`; operator 1 has only its feedback (R200). -/
def mods (alg : BitVec 3) (o : OpIx) : List OpIx :=
  match alg.toNat, o with
  | _, .op1 => []
  | 0, .op2 => [.op1]
  | 0, .op3 => [.op2]
  | 0, .op4 => [.op3]
  | 1, .op2 => []
  | 1, .op3 => [.op1, .op2]
  | 1, .op4 => [.op3]
  | 2, .op2 => []
  | 2, .op3 => [.op2]
  | 2, .op4 => [.op1, .op3]
  | 3, .op2 => [.op1]
  | 3, .op3 => []
  | 3, .op4 => [.op2, .op3]
  | 4, .op2 => [.op1]
  | 4, .op3 => []
  | 4, .op4 => [.op3]
  | 5, .op2 => [.op1]
  | 5, .op3 => [.op1]
  | 5, .op4 => [.op1]
  | 6, .op2 => [.op1]
  | _, _ => []

/-- `Carriers(alg)`: the first carrier and the others, in ascending operator order (R200). -/
def carriers (alg : BitVec 3) : OpIx × List OpIx :=
  match alg.toNat with
  | 4 => (.op2, [.op4])
  | 5 => (.op2, [.op3, .op4])
  | 6 => (.op2, [.op3, .op4])
  | 7 => (.op1, [.op2, .op3, .op4])
  | _ => (.op4, [])

/-- `ModIn(alg, o, out)`: each modulator's output halved separately, then summed (R202). -/
def modIn (alg : BitVec 3) (o : OpIx) (out : PerOp Int) : Int :=
  ((mods alg o).map fun j => asr (out.get j) 1).sum

/-- `Q9(x) = (x >> 5) << 5` (R203). -/
def q9 (x : Int) : Int := asr x 5 * 32

/-- `ClampAcc(x)` (R204). -/
def clampAcc (x : Int) : Int := max (-0x1FF0) (min x 0x1FE0)

/-- `CarrierSum(alg, out)`: the first carrier is not clamped, the sum is clamped after each addition (R205). -/
def carrierSum (alg : BitVec 3) (out : PerOp Int) : Int :=
  let k := carriers alg
  k.2.foldl (fun acc o => clampAcc (acc + q9 (out.get o))) (q9 (out.get k.1))

/-- The four operator outputs of a channel on this tick, operators 1 to 4 in order, each using the outputs of this tick
(R201, R202); an output not yet made is held as 0 and is in no `Mods` set of an operator before it (R200). -/
def Chip.chanOuts (s : Chip) (c : ChIx) : PerOp Int :=
  let alg := (s.chan c).alg
  let out1 : PerOp Int := ⟨s.opEval c .op1 (s.feedback c), 0, 0, 0⟩
  let out2 := { out1 with op2 := s.opEval c .op2 (modIn alg .op2 out1) }
  let out3 := { out2 with op3 := s.opEval c .op3 (modIn alg .op3 out2) }
  { out3 with op4 := s.opEval c .op4 (modIn alg .op4 out3) }

/-- `DacValue() = (dacSample - 128) << 6` (R206). -/
def dacValue (sample : Byte) : Int := ((sample.toNat : Int) - 128) * 64

/-- The channel sample `v` of `ChannelEval(c)`: the carriers' sum, or for channel 5 the DAC value while it is enabled
(R201, R206). -/
def Chip.chanSample (s : Chip) (c : ChIx) : Int :=
  if c = .ch5 ∧ s.dacEnable = true then dacValue s.dacSample else carrierSum (s.chan c).alg (s.chanOuts c)

/-- What the six `ChannelEval`s of a tick write: every operator's phase and history, channel 5's too (R127, R188, R201). -/
def Chip.recordChannels (s : Chip) : Chip :=
  s.mapOps fun c o x => x.record (s.nextPhase c o) ((s.chanOuts c).get o)

/-- `Ladder(v, en)` (R207). -/
def ladder (v : Int) (en : Bool) : Int :=
  if en then (if v ≥ 0 then v + 128 else v - 128) else (if v ≥ 0 then 128 else -128)

/-- The sum over the six channels. -/
def sumCh (f : ChIx → Int) : Int := f .ch0 + f .ch1 + f .ch2 + f .ch3 + f .ch4 + f .ch5

/-- `Mix()`: left and right native sample (R208). -/
def Chip.mix (s : Chip) (v : ChIx → Int) : Int × Int :=
  (asr (sumCh fun c => ladder (v c) (s.chan c).panL) 1, asr (sumCh fun c => ladder (v c) (s.chan c).panR) 1)

end Sys2Proof.Machine
end

