-- ==== Sys2Proof/Machine/Tick.lean ====
section
/-! DEFINITION. The native tick, the host's TICK, and the host adapter (47_tick_and_host.md). -/

namespace Sys2Proof.Machine

/-- The envelope sub-clock: every third tick runs the envelope (R320). -/
def Chip.egClock (s : Chip) : Chip :=
  if s.egSub + 1 = 3 then { s with egSub := 0 }.envelopeTick else { s with egSub := s.egSub + 1 }

/-- The part of a native tick before the channels: timers, LFO, envelope (R320). -/
def Chip.beforeChannels (s : Chip) : Chip := s.timerStep.lfoStep.egClock

/-- `NativeTick() -> (L, R)` (R320): the state after the tick and the stereo sample. -/
def Chip.nativeTick (s : Chip) : Chip × (Int × Int) :=
  let s' := s.beforeChannels
  ({ s'.recordChannels with sampleCount := s'.sampleCount + 1 }, s'.mix s'.chanSample)

/-- `TICK n`: `n` native ticks, the samples in order (R321). -/
def Chip.ticks : Nat → Chip → Chip × List (Int × Int)
  | 0, s => (s, [])
  | n + 1, s =>
    let r := s.nativeTick
    let rest := Chip.ticks n r.1
    (rest.1, r.2 :: rest.2)

/-! ## Host adapter -/

/-- The loop of `Resample` (R324), `n` rounds at most: while the accumulator holds a clock's worth, append the pair. -/
def Adapter.emit (clockHz : Nat) (lr : Int × Int) : Nat → Adapter → Adapter
  | 0, a => a
  | n + 1, a =>
    if a.resampleAcc ≥ clockHz then
      Adapter.emit clockHz lr n
        { a with resampleAcc := a.resampleAcc - clockHz, outBuf := a.outBuf ++ [lr.1, lr.2] }
    else a

/-- `Resample(L, R)` (R324). The loop runs `resampleAcc / clockHz` rounds: each takes one clock's worth. -/
def Adapter.resample (clockHz rateHz : Nat) (lr : Int × Int) (a : Adapter) : Adapter :=
  let a' := { a with resampleAcc := a.resampleAcc + rateHz * 144 }
  Adapter.emit clockHz lr (a'.resampleAcc / clockHz) a'

/-- The loop of `Advance` (R323), `n` rounds at most: while 144 cycles are left, one native tick, resampled. -/
def advanceLoop (clockHz rateHz : Nat) : Nat → Chip × Adapter → Chip × Adapter
  | 0, x => x
  | n + 1, (s, a) =>
    if a.cycleAcc ≥ 144 then
      let r := s.nativeTick
      advanceLoop clockHz rateHz n
        (r.1, Adapter.resample clockHz rateHz r.2 { a with cycleAcc := a.cycleAcc - 144 })
    else (s, a)

/-- `Advance(cycles)` (R323). The loop runs `cycleAcc / 144` rounds: each takes 144 cycles. -/
def advance (clockHz rateHz cycles : Nat) (x : Chip × Adapter) : Chip × Adapter :=
  let a := { x.2 with cycleAcc := x.2.cycleAcc + cycles }
  advanceLoop clockHz rateHz (a.cycleAcc / 144) (x.1, a)

/-- `TakeBuffer()` (R325): the buffer as it stands, and the adapter with an empty one. -/
def Adapter.takeBuffer (a : Adapter) : Adapter × List Int := ({ a with outBuf := [] }, a.outBuf)

end Sys2Proof.Machine
end

