-- ==== Sys2Proof/Machine/HostOps.lean ====
section
/-! DEFINITION. The operations the host issues (00_scope.md R11): which of them are instructions, and what the others do. -/

namespace Sys2Proof.Machine

/-- The instruction of `PortWrite(port, value)`; a port number outside 0..3 has none (60_exceptions.md R341). -/
def portWriteInstr (port : Nat) (value : Byte) : Option Instr :=
  match port with
  | 0 => some (.aw0 value)
  | 1 => some (.dw1 value)
  | 2 => some (.aw2 value)
  | 3 => some (.dw3 value)
  | _ => none

/-- The instruction of `PortRead(port)`; a port number outside 0..3 has none (60_exceptions.md R341). -/
def portReadInstr (port : Nat) : Option Instr :=
  match port with
  | 0 => some .rd0
  | 1 => some .rd1
  | 2 => some .rd2
  | 3 => some .rd3
  | _ => none

/-- The instruction, or the refusal where there is none. -/
def instrOr (r : Refusal) : Option Instr → Except Refusal (Option Instr)
  | some i => .ok (some i)
  | none => .error r

/-- The instruction a host operation is; `ok none` where it is no instruction of the opcode table. -/
def HostOp.instr : HostOp → Except Refusal (Option Instr)
  | .word nbits w => instrOr (.noOperationWord nbits w) (decodeTableWord nbits w)
  | .portWrite port value => instrOr (.portOutOfRange port) (portWriteInstr port value)
  | .portRead port => instrOr (.portOutOfRange port) (portReadInstr port)
  | .tick _ => .ok none
  | .advance _ => .ok none
  | .takeBuffer => .ok none

/-- `TICK n` (47_tick_and_host.md R321): the adapter is not touched. -/
def State.tick (n : Nat) (s : State) : State :=
  let r := s.chip.ticks n
  { s with chip := r.1, reply := .samples r.2 }

/-- `ADV n` (47_tick_and_host.md R323). -/
def State.advance (cycles : Nat) (s : State) : State :=
  let r := Machine.advance Config.cpuClockHz Config.outputRateHz cycles (s.chip, s.adapter)
  { s with chip := r.1, adapter := r.2 }

/-- `TakeBuffer()` (47_tick_and_host.md R325). -/
def State.takeBuffer (s : State) : State :=
  { s with adapter := s.adapter.takeBuffer.1, reply := .buffer s.adapter.takeBuffer.2 }

/-- What a host operation that is no instruction does. -/
def HostOp.hostStep (op : HostOp) (s : State) : State :=
  match op with
  | .word _ _ => s
  | .portWrite _ _ => s
  | .portRead _ => s
  | .tick n => s.tick n
  | .advance cycles => s.advance cycles
  | .takeBuffer => s.takeBuffer

/-- The next operation is taken off the queue. -/
def State.popped (s : State) : State := { s with pending := s.pending.tail }

end Sys2Proof.Machine
end

