-- ==== Sys2Proof/Machine/Step.lean ====
section
/-! DEFINITION. One step of the machine: the oldest operation the host has issued takes effect, wholly and alone (00_scope.md
R11; 20_memory.md R69, R70). -/

namespace Sys2Proof.Machine

/-- One step. With no operation issued nothing happens (60_exceptions.md R355, log 3); otherwise the oldest one is taken off
the queue and performed: an instruction by `exec`, a tick, an advance or a taken buffer by the host's side. -/
def step (s : State) : Host.Outcome State Fault Refusal :=
  match s.pending.head? with
  | none => .next s
  | some op =>
    match op.instr with
    | .error r => .refused r
    | .ok (some i) => exec i s.popped
    | .ok none => .next (op.hostStep s.popped)

/-- The state in which the host has issued the opcode-table word `w` as the very next operation (log 1, log 5). -/
def State.withFetchWord (s : State) (nbits w : Nat) : State := { s with pending := .word nbits w :: s.pending }

end Sys2Proof.Machine
end

