-- ==== Sys2Proof/Safety.lean ====
section
/-! DEFINITION. What counts as a safe run: which operations the machine accepts, the invariant of every state a run from
power-on reaches, and the terms the claims use (what a step leaves alone, what the host can see). -/

namespace Sys2Proof

/-- The channel index as the number the spec writes. -/
def ChIx.index : ChIx → Nat
  | .ch0 => 0
  | .ch1 => 1
  | .ch2 => 2
  | .ch3 => 3
  | .ch4 => 4
  | .ch5 => 5

/-- The operator number as the spec writes it. -/
def OpIx.number : OpIx → Nat
  | .op1 => 1
  | .op2 => 2
  | .op3 => 3
  | .op4 => 4

end Sys2Proof

namespace Sys2Proof.Machine

/-! ## Safe runs -/

/-- The machine accepts the operation: it is no port access outside 0..3 and no number too wide for an operation word
(60_exceptions.md R341). A run whose operations are all accepted never stops. -/
def HostOp.accepted (op : HostOp) : Bool :=
  match op.instr with
  | .ok _ => true
  | .error _ => false

/-- The ranges of the LFO counters (10_state.md R44), and what ties them together: counters at 0 while disabled, and the AM
output is the triangle of the step but for the time before the first step (44_lfo.md R231, R235). -/
def Lfo.Inv (l : Lfo) : Prop :=
  l.sub ≤ 107 ∧ l.am ≤ 126 ∧ (l.enable = false → l.sub = 0 ∧ l.step = 0 ∧ l.am = 0) ∧
    (l.am = tri l.step ∨ (l.step = 0 ∧ l.am = 0))

/-- The range of an operator's output history (10_state.md R36). -/
def Operator.Inv (x : Operator) : Prop :=
  -8168 ≤ x.hist0 ∧ x.hist0 ≤ 8168 ∧ -8168 ≤ x.hist1 ∧ x.hist1 ≤ 8168

/-- The block's invariant: the ranges of 10_state.md R36, R44, R50, the reserved status bits of R56, the time stamps of R51 and
R52 (a busy window ends at most `BUSY_SAMPLES` from now, a cached status is not from the future), and R50's envelope counter, which is
0 only before the first envelope tick. -/
def Chip.Inv (s : Chip) : Prop :=
  (∀ c o, (s.op c o).Inv) ∧ s.lfo.Inv ∧ s.egSub ≤ 2 ∧ (s.egCounter = 0 → s.egSub = s.sampleCount) ∧
    s.busyUntil ≤ s.sampleCount + Config.busySamples ∧ s.statusTime ≤ s.sampleCount ∧ s.statusCache &&& 0x7C = 0

/-- An output sample lies in the range of 43_algorithm_router.md R208, which fits 16 bits signed. -/
def inSampleRange (x : Int) : Prop := -24960 ≤ x ∧ x ≤ 24864

/-- The adapter's invariant between calls (10_state.md R57; 47_tick_and_host.md R326). -/
def Adapter.Inv (a : Adapter) : Prop :=
  a.cycleAcc < 144 ∧ a.resampleAcc < (Config.cpuClockHz : Nat) ∧ (∀ x ∈ a.outBuf, inSampleRange x) ∧
    a.outBuf.length % 2 = 0

/-- The invariant of the machine. -/
def State.Inv (s : State) : Prop := s.chip.Inv ∧ s.adapter.Inv

/-! ## What is left alone -/

/-- The machine but for the block is the same. -/
def State.SameHost (s t : State) : Prop := t.adapter = s.adapter ∧ t.pending = s.pending ∧ t.reply = s.reply

/-- The block but for the operators is the same. -/
def Chip.SameButOps (s t : Chip) : Prop := t = { s with ops := t.ops }

/-- From `s` to `t` operator `o` of channel `c` becomes `x`; every other operator and everything else of the machine is kept. -/
def OnlyOp (c : ChIx) (o : OpIx) (x : Operator) (s t : State) : Prop :=
  s.SameHost t ∧ s.chip.SameButOps t.chip ∧ t.chip.op c o = x ∧
    ∀ c' o', ¬(c' = c ∧ o' = o) → t.chip.op c' o' = s.chip.op c' o'

/-- From `s` to `t` channel `c` becomes `x`; every other channel and everything else of the machine is kept. -/
def OnlyChan (c : ChIx) (x : Channel) (s t : State) : Prop :=
  s.SameHost t ∧ t.chip = { s.chip with ch := t.chip.ch } ∧ t.chip.chan c = x ∧
    ∀ c', c' ≠ c → t.chip.chan c' = s.chip.chan c'

/-! ## Names for the claims -/

/-- The ignored classes of 30_encoding.md R91, as the rule lists them. -/
def ignoredClass (part : Part) (a d : Byte) : Bool :=
  let n := a.toNat
  (part = .part1 && 0x20 ≤ n && n ≤ 0x2F) ||
    (part = .part0 && (n == 0x20 || n == 0x21 || n == 0x23 || n == 0x29 || (0x2C ≤ n && n ≤ 0x2F))) ||
    n ≤ 0x1F || 0xB7 ≤ n || (0x30 ≤ n && n ≤ 0xBF && n % 4 == 3) ||
    (part = .part1 && 0xA8 ≤ n && n ≤ 0xAF) ||
    (part = .part0 && n == 0x28 && d.toNat % 4 == 3)

/-- The rows of the opcode table whose rule is 46_register_interface.md R301. -/
def isIgnoreRow : Instr → Bool
  | .ignore _ _ _ => true
  | .ignoreKeyChsel3 _ => true
  | .ignoreDtMulCh3 _ _ _ => true
  | .ignoreTlCh3 _ _ _ => true
  | .ignoreRsArCh3 _ _ _ => true
  | .ignoreAmD1rCh3 _ _ _ => true
  | .ignoreD2rCh3 _ _ _ => true
  | .ignoreD1lRrCh3 _ _ _ => true
  | .ignoreSsgEgCh3 _ _ _ => true
  | .ignoreFnumLoCh3 _ _ => true
  | .ignoreFnumHiBlockCh3 _ _ => true
  | .ignoreCh2OpFnumLoPart1 _ _ => true
  | .ignoreCh2OpFnumLoSel3 _ => true
  | .ignoreCh2OpFnumHiBlockPart1 _ _ => true
  | .ignoreCh2OpFnumHiBlockSel3 _ => true
  | .ignoreFbAlgCh3 _ _ => true
  | .ignorePanAmsFmsCh3 _ _ => true
  | _ => false

/-- The instruction writes the register `a` of part 0 with data `d`: the register word itself, or a data write to port 1 with
the latch at `a`. -/
def writesPart0 (i : Instr) (s : Chip) (a d : Byte) : Prop :=
  i = decodeReg (regWord .part0 a d) ∨ (i = .dw1 d ∧ s.addrLatch0 = a)

/-- What a host can see of the block through its ports: the timers with their flags, the time stamps, the status cache and
the two latches (10_state.md R54..R56, R58), and of the adapter the cycles left over. -/
structure Visible where
  timerA      : TimerA
  timerB      : TimerB
  addrLatch0  : Byte
  addrLatch1  : Byte
  busyUntil   : Nat
  statusCache : Byte
  statusTime  : Nat
  sampleCount : Nat
  cycleAcc    : Nat
deriving DecidableEq, Repr

/-- The visible part of a state. -/
def State.visible (s : State) : Visible where
  timerA := s.chip.timerA
  timerB := s.chip.timerB
  addrLatch0 := s.chip.addrLatch0
  addrLatch1 := s.chip.addrLatch1
  busyUntil := s.chip.busyUntil
  statusCache := s.chip.statusCache
  statusTime := s.chip.statusTime
  sampleCount := s.chip.sampleCount
  cycleAcc := s.adapter.cycleAcc

/-- A silent block (70_reset_and_hazards.md R363): every operator in Release at 0x3FF, the DAC off, and no CSM trigger to come. -/
def Chip.Silent (s : Chip) : Prop :=
  (∀ c o, (s.op c o).egState = .release ∧ (s.op c o).level = 0x3FF) ∧ s.dacEnable = false ∧
    (s.timerA.load = false ∨ s.ch3Mode ≠ .csm)

end Sys2Proof.Machine
end

