-- ==== Sys2Proof/Certificates/Slice0/Obligations.lean ====
section
/-! DEFINITION. The statements for the provers. -/

open Sys2Proof Sys2Proof.Machine

/-! ## Encoding -/

/-- 30_encoding.md R80: a format P word is the port operation its direction bit and port field select. That the low byte of a read
word plays no part is the model's reading (log 6): R80 says it is zero. -/
def Obligations.PortWordSelectsPortOperation : Prop :=
  ∀ w : BitVec 11,
    some (decodePort w) =
      if w.getLsbD 10 then portReadInstr (w.toNat / 256 % 4)
      else portWriteInstr (w.toNat / 256 % 4) (BitVec.ofNat 8 w.toNat)

/-- 30_encoding.md R82: the decoder takes the most specific row of the opcode table; every word has one, and rows of equal
specificity have the same rule. -/
def Obligations.DecoderTakesMostSpecificRow : Prop :=
  ∀ w : BitVec 17, ∃ r ∈ regTable, r.covers w = true ∧ r.mnemonic = (decodeReg w).mnemonic ∧
    ∀ r' ∈ regTable, r'.covers w = true → r'.width < r.width ∨ (r'.width = r.width ∧ r'.rule = r.rule)

/-- Every operation word decodes to a well-formed instruction (30_encoding.md R93: there are no illegal encodings). -/
def Obligations.EveryWordDecodesWellFormed : Prop :=
  ∀ w : OpWord, (decode w).wf = true

/-- Decode of encode is the identity on well-formed instructions, through the typed words and through the opcode table's
numbering. -/
def Obligations.DecodeOfEncodeIsIdentity : Prop :=
  ∀ i : Instr, i.wf = true →
    decode (encode i) = i ∧ decodeTableWord (encode i).nbits (encode i).toNat = some i

/-- Words written out bit by bit from the tables of 30_encoding.md R80, R83, R84, R86, one family each. -/
def Obligations.WrittenOutWordsDecode : Prop :=
  decodePort 0b001_11110000#11 = .dw1 0xF0 ∧
  decodePort 0b110_00000000#11 = .rd2 ∧
  decodeReg 0b0_00100010_00001011#17 = .lfo true 3 ∧
  decodeReg 0b0_00100111_10010101#17 = .timerCtrl .csm false true false true false true ∧
  decodeReg 0b0_00101000_11110100#17 = .keyOnOff .ch3 0b1111 ∧
  decodeReg 0b0_00110100_01110001#17 = .dtMul .ch0 .op3 7 1 ∧
  decodeReg 0b1_01001110_01111111#17 = .tl .ch5 .op4 127 ∧
  decodeReg 0b0_10101001_01010101#17 = .ch2OpFnumLo .op1 0x55 ∧
  decodeReg 0b1_10110101_01101011#17 = .panAmsFms .ch4 false true 2 3 ∧
  decodeReg 0b1_00101000_11110000#17 = .ignore .part1 0x28 0xF0

/-! ## The step -/

/-- A step takes the oldest operation the host has issued and runs its instruction: `exec` of it, in the state with that operation
taken off the queue. -/
def Obligations.StepRunsTheDecodedInstruction : Prop :=
  ∀ (s : State) (rest : List HostOp) (i : Instr),
    (∀ nbits w : Nat, s.pending = .word nbits w :: rest → decodeTableWord nbits w = some i →
      step s = exec i { s with pending := rest }) ∧
    (∀ (port : Nat) (v : Byte), s.pending = .portWrite port v :: rest → portWriteInstr port v = some i →
      step s = exec i { s with pending := rest }) ∧
    (∀ port : Nat, s.pending = .portRead port :: rest → portReadInstr port = some i →
      step s = exec i { s with pending := rest })

/-- 47_tick_and_host.md R321, R323, R325: what a step does for the host's other operations. -/
def Obligations.StepRunsTicksAndAdapterCalls : Prop :=
  ∀ (s : State) (rest : List HostOp),
    (∀ n : Nat, s.pending = .tick n :: rest → ∃ t, step s = .next t ∧
      t.chip = (s.chip.ticks n).1 ∧ t.reply = .samples (s.chip.ticks n).2 ∧ t.adapter = s.adapter ∧
      t.pending = rest ∧ (s.chip.ticks n).2.length = n) ∧
    (∀ n : Nat, s.pending = .advance n :: rest → ∃ t, step s = .next t ∧
      (t.chip, t.adapter) = Machine.advance Config.cpuClockHz Config.outputRateHz n (s.chip, s.adapter) ∧
      t.reply = s.reply ∧ t.pending = rest) ∧
    (s.pending = .takeBuffer :: rest → ∃ t, step s = .next t ∧
      t.reply = .buffer s.adapter.outBuf ∧ t.adapter = { s.adapter with outBuf := [] } ∧
      t.chip = s.chip ∧ t.pending = rest)

/-- The model's reading of 60_exceptions.md R355 (log 3): with no operation issued a step changes nothing. -/
def Obligations.StepWithNothingIssuedIsIdle : Prop :=
  ∀ s : State, s.pending = [] → step s = .next s

/-- 60_exceptions.md R341: a port number outside 0..3 has no encoding, and such a call is refused. -/
def Obligations.PortOutsideRangeIsRefused : Prop :=
  (∀ w : BitVec 11, ∃ port ≤ 3,
    some (decodePort w) = portReadInstr port ∨ ∃ v, some (decodePort w) = portWriteInstr port v) ∧
  ∀ (s : State) (port : Nat) (v : Byte) (rest : List HostOp), 3 < port →
    (s.pending = .portWrite port v :: rest → step s = .refused (.portOutOfRange port)) ∧
    (s.pending = .portRead port :: rest → step s = .refused (.portOutOfRange port))

/-- 60_exceptions.md R340: no operation raises an exception. Every instruction is defined for every state, so is a step that performs a
port write or read on ports 0..3 or a native tick, and there is no fault to report. -/
def Obligations.EveryInstructionCompletes : Prop :=
  (∀ (i : Instr) (s : State), ∃ t, exec i s = .next t) ∧
  (∀ (s : State) (rest : List HostOp) (port : Nat) (v : Byte), port ≤ 3 →
    (s.pending = .portWrite port v :: rest → ∃ t, step s = .next t) ∧
    (s.pending = .portRead port :: rest → ∃ t, step s = .next t) ∧
    (s.pending = .tick 1 :: rest → ∃ t, step s = .next t)) ∧
  ¬ ∃ f : Fault, f = f

/-- A step stops only on an operation that is not accepted: a port outside 0..3 or a number too wide for an operation word. -/
def Obligations.StepStopsOnlyOnUnacceptedOperation : Prop :=
  ∀ (s : State) (op : HostOp) (rest : List HostOp), s.pending = op :: rest →
    ((∃ t, step s = .next t) ↔
      match op with
      | .word _ w => w < 131072
      | .portWrite port _ => port ≤ 3
      | .portRead port => port ≤ 3
      | _ => True)

/-! ## Power-on -/

/-- 70_reset_and_hazards.md R360: the value of every field after power-on. -/
def Obligations.PowerOnState : Prop :=
  (∀ c o, State.reset.chip.op c o =
    { dt := 0, mul := 0, tl := 0, rs := 0, ar := 0, d1r := 0, d2r := 0, rr := 0, d1l := 0, am := false, ssg := 0,
      ssgInv := false, phase := 0, egState := .release, level := 0x3FF, keyLatch := false, hist0 := 0, hist1 := 0 }) ∧
  (∀ c, State.reset.chip.chan c =
    { fnum := 0, block := 0, alg := 0, fb := 0, panL := true, panR := true, ams := 0, fms := 0 }) ∧
  (∀ p, State.reset.chip.addrLatch p = 0) ∧
  (∀ i, State.reset.chip.spFnum.get i = 0 ∧ State.reset.chip.spBlock.get i = 0) ∧
  State.reset.chip.fnumHiLatch = 0 ∧ State.reset.chip.ch3HiLatch = 0 ∧
  State.reset.chip.dacEnable = false ∧ State.reset.chip.dacSample = 0 ∧
  State.reset.chip.lfo = { enable := false, freq := 0, sub := 0, step := 0, am := 0 } ∧
  State.reset.chip.timerA = { period := 0, cnt := 0, load := false, enable := false, ov := false } ∧
  State.reset.chip.timerB = { period := 0, cnt := 0, sub := 0, load := false, enable := false, ov := false } ∧
  State.reset.chip.ch3Mode = .normal ∧ State.reset.chip.csmPending = false ∧
  State.reset.chip.egCounter = 0 ∧ State.reset.chip.egSub = 0 ∧
  State.reset.chip.busyUntil = 0 ∧ State.reset.chip.statusCache = 0 ∧ State.reset.chip.statusTime = 0 ∧
  State.reset.chip.sampleCount = 0 ∧
  State.reset.adapter = { cycleAcc := 0, resampleAcc := 0, outBuf := [] }

/-- 70_reset_and_hazards.md R363: a chip that is only ticked after power-on outputs 384 on both sides on every tick, for these
reasons: the operators stay in Release at 0x3FF and their outputs at 0, the timers and the LFO stay where they are, the envelope
counter runs, and the effective rate of every operator is 2, which never fires. -/
def Obligations.PowerOnChipOutputs384 : Prop :=
  ∀ n : Nat, ((Chip.reset.ticks n).2 = List.replicate n (384, 384)) ∧
    (∀ c o, let x := (Chip.reset.ticks n).1.op c o
      x.egState = .release ∧ x.level = 0x3FF ∧ x.hist0 = 0 ∧ x.hist1 = 0 ∧
      x.effRate .release ((Chip.reset.ticks n).1.keyCode c o) = 2 ∧ ∀ cnt, egInc 2 cnt = 0) ∧
    (Chip.reset.ticks n).1.timerA = Chip.reset.timerA ∧ (Chip.reset.ticks n).1.timerB = Chip.reset.timerB ∧
    (Chip.reset.ticks n).1.lfo = Chip.reset.lfo ∧
    (Chip.reset.ticks n).1.egCounter.toNat = (if n / 3 = 0 then 0 else (n / 3 - 1) % 4095 + 1)

/-- A silent block outputs 384 on both sides whatever its pans are, and a tick keeps it silent. -/
def Obligations.SilentChipStaysSilent : Prop :=
  ∀ s : Chip, s.Silent → s.nativeTick.2 = (384, 384) ∧ s.nativeTick.1.Silent

/-! ## Port operations -/

/-- 46_register_interface.md R270: an address write changes the address latch of its part and nothing else; data writes keep
the latches. -/
def Obligations.AddressWriteChangesOnlyItsLatch : Prop :=
  (∀ v : Byte, decodePort (portWord 0b000 v) = .aw0 v ∧ decodePort (portWord 0b010 v) = .aw2 v) ∧
  (∀ (v : Byte) (s : State), exec (.aw0 v) s = .next { s with chip := { s.chip with addrLatch0 := v } }) ∧
  (∀ (v : Byte) (s : State), exec (.aw2 v) s = .next { s with chip := { s.chip with addrLatch1 := v } }) ∧
  (∀ (v : Byte) (s t : State), exec (.dw1 v) s = .next t ∨ exec (.dw3 v) s = .next t →
    t.chip.addrLatch0 = s.chip.addrLatch0 ∧ t.chip.addrLatch1 = s.chip.addrLatch1)

/-- 46_register_interface.md R272: a data write arms the busy window and performs the register write word of its part, its
latched address and its byte, busy or not; the word's own decoding (R82) and the write's dispatch (R274) agree. -/
def Obligations.DataWritePerformsItsRegisterWord : Prop :=
  ∀ (v : Byte) (s : State),
    (decodePort (portWord 0b001 v) = .dw1 v ∧ decodePort (portWord 0b011 v) = .dw3 v) ∧
    let s' : State := { s with chip := { s.chip with busyUntil := s.chip.sampleCount + Config.busySamples } }
    (∃ t, exec (.dw1 v) s = .next t ∧ t.chip.busyUntil = s.chip.sampleCount + Config.busySamples ∧
      exec (decodeReg (regWord .part0 s.chip.addrLatch0 v)) s' = .next t) ∧
    (∃ t, exec (.dw3 v) s = .next t ∧ t.chip.busyUntil = s.chip.sampleCount + Config.busySamples ∧
      exec (decodeReg (regWord .part1 s.chip.addrLatch1 v)) s' = .next t)

/-- 30_encoding.md R91: a data write of an ignored class changes nothing but `busyUntil`. -/
def Obligations.IgnoredClassesChangeOnlyBusy : Prop :=
  ∀ (v : Byte) (s : State),
    let s' : State := { s with chip := { s.chip with busyUntil := s.chip.sampleCount + Config.busySamples } }
    (ignoredClass .part0 s.chip.addrLatch0 v = true → exec (.dw1 v) s = .next s') ∧
    (ignoredClass .part1 s.chip.addrLatch1 v = true → exec (.dw3 v) s = .next s')

/-- 46_register_interface.md R301: a register word of an ignored row changes no state at all, and exactly the words of R91's classes
decode to such a row. -/
def Obligations.IgnoredWordsChangeNothing : Prop :=
  (∀ (i : Instr) (s : State), isIgnoreRow i = true → exec i s = .next s) ∧
  (∀ (p : Part) (a d : Byte), isIgnoreRow (decodeReg (regWord p a d)) = ignoredClass p a d)

/-- 46_register_interface.md R271 with the status byte of 10_state.md R56: a live status read, on port 0 and on port 2. -/
def Obligations.LiveStatusReadReturnsAndCaches : Prop :=
  (decodePort (portWord 0b100 0) = .rd0 ∧ decodePort (portWord 0b110 0) = .rd2) ∧
  ∀ (i : Instr) (s : State), i = .rd0 ∨ i = .rd2 →
    ∃ (v : Byte) (t : State), exec i s = .next t ∧ t.reply = .byte v ∧
      t.chip = { s.chip with statusCache := v, statusTime := s.chip.sampleCount } ∧
      t.adapter = s.adapter ∧ t.pending = s.pending ∧
      (v.getLsbD 7 = true ↔ s.chip.sampleCount < s.chip.busyUntil) ∧
      v.getLsbD 1 = s.chip.timerB.ov ∧ v.getLsbD 0 = s.chip.timerA.ov ∧
      ∀ k, 2 ≤ k → k ≤ 6 → v.getLsbD k = false

/-- 46_register_interface.md R273: a cached status read, on port 1 and on port 3; before any live read it returns 0. -/
def Obligations.CachedStatusReadReturnsCache : Prop :=
  (decodePort (portWord 0b101 0) = .rd1 ∧ decodePort (portWord 0b111 0) = .rd3) ∧
  (∀ (i : Instr) (s : State), i = .rd1 ∨ i = .rd3 →
    let v : Byte :=
      if (s.chip.sampleCount : Int) - s.chip.statusTime < Config.statusDecaySamples then s.chip.statusCache else 0
    exec i s = .next { s with reply := .byte v }) ∧
  (∀ i : Instr, i = .rd1 ∨ i = .rd3 → exec i State.reset = .next { State.reset with reply := .byte 0 })

/-- Isolation: what a host can read at the ports never depends on the sound state. Two states that agree on the visible part
and the issued operations still agree after a step, and a port read returns the same byte in both (10_state.md R20). -/
def Obligations.SoundStateNeverReachesThePorts : Prop :=
  ∀ (s₁ s₂ t₁ : State), s₁.visible = s₂.visible → s₁.pending = s₂.pending → step s₁ = .next t₁ →
    ∃ t₂, step s₂ = .next t₂ ∧ t₁.visible = t₂.visible ∧ t₁.pending = t₂.pending ∧
      (∀ port rest, s₁.pending = .portRead port :: rest → t₁.reply = t₂.reply)

/-! ## Global registers -/

/-- 46_register_interface.md R275: `$22`, its operands and its effect. -/
def Obligations.LfoControlWrite : Prop :=
  (∀ d : Byte, decodeReg (regWord .part0 0x22 d) = .lfo (d.getLsbD 3) (d.extractLsb' 0 3)) ∧
  ∀ (en : Bool) (f : BitVec 3) (s : State), ∃ t, exec (.lfo en f) s = .next t ∧ s.SameHost t ∧
    t.chip = { s.chip with lfo := t.chip.lfo } ∧ t.chip.lfo.freq = f ∧ t.chip.lfo.enable = en ∧
    (en = false → t.chip.lfo.sub = 0 ∧ t.chip.lfo.step = 0 ∧ t.chip.lfo.am = 0) ∧
    (en = true → t.chip.lfo.sub = s.chip.lfo.sub ∧ t.chip.lfo.step = s.chip.lfo.step ∧ t.chip.lfo.am = s.chip.lfo.am)

/-- 46_register_interface.md R276, R277, R278: the three period registers; no counter is reloaded. -/
def Obligations.TimerPeriodWrites : Prop :=
  (∀ d : Byte, decodeReg (regWord .part0 0x24 d) = .timerAHi d ∧
    decodeReg (regWord .part0 0x25 d) = .timerALo (d.extractLsb' 0 2) ∧ decodeReg (regWord .part0 0x26 d) = .timerB d) ∧
  (∀ (hi : BitVec 8) (s : State), ∃ p : BitVec 10,
    exec (.timerAHi hi) s = .next { s with chip := { s.chip with timerA := { s.chip.timerA with period := p } } } ∧
    p.toNat = hi.toNat * 4 + s.chip.timerA.period.toNat % 4) ∧
  (∀ (lo : BitVec 2) (s : State), ∃ p : BitVec 10,
    exec (.timerALo lo) s = .next { s with chip := { s.chip with timerA := { s.chip.timerA with period := p } } } ∧
    p.toNat = s.chip.timerA.period.toNat / 4 * 4 + lo.toNat) ∧
  (∀ (p : BitVec 8) (s : State),
    exec (.timerB p) s = .next { s with chip := { s.chip with timerB := { s.chip.timerB with period := p } } })

/-- 46_register_interface.md R279: `$27`, its operands and its effect; out of Special and CSM mode every operator of channel 2 uses its
channel's frequency again, and the override registers are kept. -/
def Obligations.TimerControlWrite : Prop :=
  (∀ d : Byte, decodeReg (regWord .part0 0x27 d) =
    .timerCtrl (if d.toNat / 64 = 0 then .normal else if d.toNat / 64 = 2 then .csm else .special)
      (d.getLsbD 5) (d.getLsbD 4) (d.getLsbD 3) (d.getLsbD 2) (d.getLsbD 1) (d.getLsbD 0)) ∧
  ∀ (m : Ch3Mode) (rB rA eB eA lB lA : Bool) (s : State),
    ∃ t, exec (.timerCtrl m rB rA eB eA lB lA) s = .next t ∧ s.SameHost t ∧
      t.chip = { s.chip with timerA := t.chip.timerA, timerB := t.chip.timerB, ch3Mode := m } ∧
      t.chip.timerA.period = s.chip.timerA.period ∧ t.chip.timerA.load = lA ∧ t.chip.timerA.enable = eA ∧
      t.chip.timerA.cnt = (if lA = true ∧ s.chip.timerA.load = false then 0 else s.chip.timerA.cnt) ∧
      t.chip.timerA.ov = (if rA = true then false else s.chip.timerA.ov) ∧
      t.chip.timerB.period = s.chip.timerB.period ∧ t.chip.timerB.load = lB ∧ t.chip.timerB.enable = eB ∧
      t.chip.timerB.cnt = (if lB = true ∧ s.chip.timerB.load = false then 0 else s.chip.timerB.cnt) ∧
      t.chip.timerB.sub = (if lB = true ∧ s.chip.timerB.load = false then 0 else s.chip.timerB.sub) ∧
      t.chip.timerB.ov = (if rB = true then false else s.chip.timerB.ov) ∧
      (m = .normal → ∀ o, t.chip.fSrc .ch2 o = ⟨(s.chip.chan .ch2).fnum, (s.chip.chan .ch2).block⟩)

/-- 46_register_interface.md R283: `$28` acts on changes of the key latch of the selected channel's operators; a channel select whose
low bits are 3 ignores the whole write, and bit 3 of the data is ignored. -/
def Obligations.KeyWriteActsOnLatchChanges : Prop :=
  (∀ (c : ChIx) (keys : BitVec 4) (s : State), ∃ t, exec (.keyOnOff c keys) s = .next t ∧ s.SameHost t ∧
    s.chip.SameButOps t.chip ∧ (∀ c' o, c' ≠ c → t.chip.op c' o = s.chip.op c' o) ∧
    ∀ o, let x := s.chip.op c o
      t.chip.op c o =
        if keys.getLsbD (o.number - 1) = true ∧ x.keyLatch = false then
          { x with keyLatch := true }.keyOn (s.chip.keyCode c o)
        else if keys.getLsbD (o.number - 1) = false ∧ x.keyLatch = true then { x with keyLatch := false }.keyOff
        else x) ∧
  (∀ (r : BitVec 6) (s : State), exec (.ignoreKeyChsel3 r) s = .next s) ∧
  (∀ d : Byte,
    if d.toNat % 4 = 3 then ∃ r, decodeReg (regWord .part0 0x28 d) = .ignoreKeyChsel3 r
    else ∃ c : ChIx, c.index = d.toNat % 4 + 3 * (d.toNat / 4 % 2) ∧
      decodeReg (regWord .part0 0x28 d) = .keyOnOff c (BitVec.ofNat 4 (d.toNat / 16)))

/-- 46_register_interface.md R284, R285: `$2A` and `$2B`, their operands and what they store. -/
def Obligations.DacRegisterWrites : Prop :=
  (∀ d : Byte, decodeReg (regWord .part0 0x2A d) = .dacSample d ∧
    decodeReg (regWord .part0 0x2B d) = .dacEnable (d.getLsbD 7)) ∧
  (∀ (v : Byte) (s : State), exec (.dacSample v) s = .next { s with chip := { s.chip with dacSample := v } }) ∧
  (∀ (en : Bool) (s : State), exec (.dacEnable en) s = .next { s with chip := { s.chip with dacEnable := en } })

/-! ## Operator and channel registers -/

/-- 46_register_interface.md R286 to R293: which operator, which register and which bits of the data an address of `$30`..`$9F` selects;
each per-operator register writes its fields of the one operator it addresses, and nothing else: no phase, envelope, `ssgInv` or
latch. Sustain level 15 is 0x3E0, and release rate 0 is register rate 1. -/
def Obligations.OperatorRegisterWrites : Prop :=
  (∀ (p : Part) (a d : Byte), 0x30 ≤ a.toNat → a.toNat ≤ 0x9F →
    if a.toNat % 4 = 3 then ∀ s : State, exec (decodeReg (regWord p a d)) s = .next s
    else ∃ (c : ChIx) (o : OpIx), c.index = 3 * (partBit p).toNat + a.toNat % 4 ∧
      o.number = [1, 3, 2, 4].getD (a.toNat / 4 % 4) 0 ∧
      decodeReg (regWord p a d) =
        match a.toNat / 16 with
        | 3 => .dtMul c o (d.extractLsb' 4 3) (d.extractLsb' 0 4)
        | 4 => .tl c o (d.extractLsb' 0 7)
        | 5 => .rsAr c o (d.extractLsb' 6 2) (d.extractLsb' 0 5)
        | 6 => .amD1r c o (d.getLsbD 7) (d.extractLsb' 0 5)
        | 7 => .d2r c o (d.extractLsb' 0 5)
        | 8 => .d1lRr c o (d.extractLsb' 4 4) (d.extractLsb' 0 4)
        | _ => .ssgEg c o (d.extractLsb' 0 4)) ∧
  (sustainLevel 15 = 0x3E0 ∧ ∀ x : Operator, x.rr = 0 → x.rate5 .release = 1) ∧
  ∀ (c : ChIx) (o : OpIx) (s : State), let x := s.chip.op c o
    (∀ dt mul, ∃ t, exec (.dtMul c o dt mul) s = .next t ∧ OnlyOp c o { x with dt := dt, mul := mul } s t) ∧
    (∀ l, ∃ t, exec (.tl c o l) s = .next t ∧ OnlyOp c o { x with tl := l } s t) ∧
    (∀ rs ar, ∃ t, exec (.rsAr c o rs ar) s = .next t ∧ OnlyOp c o { x with rs := rs, ar := ar } s t) ∧
    (∀ am r, ∃ t, exec (.amD1r c o am r) s = .next t ∧ OnlyOp c o { x with am := am, d1r := r } s t) ∧
    (∀ r, ∃ t, exec (.d2r c o r) s = .next t ∧ OnlyOp c o { x with d2r := r } s t) ∧
    (∀ l r, ∃ t, exec (.d1lRr c o l r) s = .next t ∧ OnlyOp c o { x with d1l := l, rr := r } s t) ∧
    (∀ m, ∃ t, exec (.ssgEg c o m) s = .next t ∧ OnlyOp c o { x with ssg := m } s t)

/-- 46_register_interface.md R294, R295, R296: the high byte, whichever part and channel it is written for, only loads the shared
latch; the low byte transfers latch and byte to the channel and keeps the latch. -/
def Obligations.FrequencyHalvesCombineOnLowWrite : Prop :=
  (∀ (p : Part) (a d : Byte), a.toNat % 4 ≠ 3 → ∃ c : ChIx, c.index = 3 * (partBit p).toNat + a.toNat % 4 ∧
    (a.toNat / 4 = 0xA0 / 4 → decodeReg (regWord p a d) = .fnumLo c d) ∧
    (a.toNat / 4 = 0xA4 / 4 → decodeReg (regWord p a d) = .fnumHiBlock c (d.extractLsb' 3 3) (d.extractLsb' 0 3))) ∧
  (∀ (c : ChIx) (lo : Byte) (s : State), ∃ (t : State) (f : BitVec 11) (b : BitVec 3),
    exec (.fnumLo c lo) s = .next t ∧ OnlyChan c { s.chip.chan c with fnum := f, block := b } s t ∧
    f.toNat = s.chip.fnumHiLatch.toNat % 8 * 256 + lo.toNat ∧ b.toNat = s.chip.fnumHiLatch.toNat / 8) ∧
  (∀ (c : ChIx) (b hi : BitVec 3) (s : State), ∃ l : BitVec 6,
    exec (.fnumHiBlock c b hi) s = .next { s with chip := { s.chip with fnumHiLatch := l } } ∧
    l.toNat = b.toNat * 8 + hi.toNat)

/-- 46_register_interface.md R297, R298: the override registers of channel 2, stored in every mode, on part 0 only, in the operator
order 3, 1, 2. -/
def Obligations.OverrideFrequencyWrites : Prop :=
  (∀ (o : SpIx) (lo : Byte) (s : State), ∃ (t : State) (f : BitVec 11) (b : BitVec 3),
    exec (.ch2OpFnumLo o lo) s = .next t ∧ s.SameHost t ∧
    t.chip = { s.chip with spFnum := t.chip.spFnum, spBlock := t.chip.spBlock } ∧
    t.chip.spFnum.get o = f ∧ t.chip.spBlock.get o = b ∧
    (∀ o', o' ≠ o → t.chip.spFnum.get o' = s.chip.spFnum.get o' ∧ t.chip.spBlock.get o' = s.chip.spBlock.get o') ∧
    f.toNat = s.chip.ch3HiLatch.toNat % 8 * 256 + lo.toNat ∧ b.toNat = s.chip.ch3HiLatch.toNat / 8) ∧
  (∀ (o : SpIx) (b hi : BitVec 3) (s : State), ∃ l : BitVec 6,
    exec (.ch2OpFnumHiBlock o b hi) s = .next { s with chip := { s.chip with ch3HiLatch := l } } ∧
    l.toNat = b.toNat * 8 + hi.toNat) ∧
  (∀ d : Byte, decodeReg (regWord .part0 0xA8 d) = .ch2OpFnumLo .op3 d ∧
    decodeReg (regWord .part0 0xA9 d) = .ch2OpFnumLo .op1 d ∧ decodeReg (regWord .part0 0xAA d) = .ch2OpFnumLo .op2 d) ∧
  (∀ a d : Byte, 0xAC ≤ a.toNat → a.toNat ≤ 0xAE → ∃ o : SpIx,
    decodeReg (regWord .part0 a d) = .ch2OpFnumHiBlock o (d.extractLsb' 3 3) (d.extractLsb' 0 3)) ∧
  (∀ (a d : Byte) (s : State), 0xA8 ≤ a.toNat → a.toNat ≤ 0xAF → exec (decodeReg (regWord .part1 a d)) s = .next s)

/-- 46_register_interface.md R299, R300: feedback and algorithm, pan and sensitivities of one channel; the output histories are
kept. -/
def Obligations.AlgorithmAndPanWrites : Prop :=
  (∀ (p : Part) (a d : Byte), a.toNat % 4 ≠ 3 → ∃ c : ChIx, c.index = 3 * (partBit p).toNat + a.toNat % 4 ∧
    (a.toNat / 4 = 0xB0 / 4 → decodeReg (regWord p a d) = .fbAlg c (d.extractLsb' 3 3) (d.extractLsb' 0 3)) ∧
    (a.toNat / 4 = 0xB4 / 4 → decodeReg (regWord p a d) =
      .panAmsFms c (d.getLsbD 7) (d.getLsbD 6) (d.extractLsb' 4 2) (d.extractLsb' 0 3))) ∧
  (∀ (c : ChIx) (fb alg : BitVec 3) (s : State), ∃ t, exec (.fbAlg c fb alg) s = .next t ∧
    OnlyChan c { s.chip.chan c with fb := fb, alg := alg } s t) ∧
  (∀ (c : ChIx) (l r : Bool) (ams : BitVec 2) (fms : BitVec 3) (s : State), ∃ t,
    exec (.panAmsFms c l r ams fms) s = .next t ∧
    OnlyChan c { s.chip.chan c with panL := l, panR := r, ams := ams, fms := fms } s t)

/-! ## What only certain operations change -/

/-- 10_state.md R54: an overflow flag is set by nothing but an overflow of its timer while enabled, in a native tick, and
cleared by nothing but a `$27` write with its reset bit; busy is computed when read. -/
def Obligations.OverflowFlagsChangeOnlyByOverflowAndReset : Prop :=
  (∀ (i : Instr) (s t : State), exec i s = .next t →
    (t.chip.timerA.ov = true → s.chip.timerA.ov = true) ∧ (t.chip.timerB.ov = true → s.chip.timerB.ov = true) ∧
    (s.chip.timerA.ov = true → t.chip.timerA.ov = false → ∃ d : Byte, d.getLsbD 4 = true ∧ writesPart0 i s.chip 0x27 d) ∧
    (s.chip.timerB.ov = true → t.chip.timerB.ov = false → ∃ d : Byte, d.getLsbD 5 = true ∧ writesPart0 i s.chip 0x27 d)) ∧
  (∀ s : Chip,
    s.nativeTick.1.timerA.ov = (s.timerA.ov || (s.timerA.enable && s.timerA.overflows)) ∧
    s.nativeTick.1.timerB.ov = (s.timerB.ov || (s.timerB.enable && s.timerB.load && s.timerB.sub == 15 &&
      decide (s.timerB.cnt.toNat + 1 ≥ 256 - s.timerB.period.toNat)))) ∧
  (∀ s : Chip, s.busy = true ↔ s.sampleCount < s.busyUntil)

/-- 10_state.md R35: the key latch is written by register `$28` alone; ticks, CSM key-ons among them, keep it. -/
def Obligations.KeyLatchWrittenOnlyByRegister28 : Prop :=
  (∀ (i : Instr) (s t : State) (c : ChIx) (o : OpIx), exec i s = .next t →
    (t.chip.op c o).keyLatch ≠ (s.chip.op c o).keyLatch → ∃ d : Byte, writesPart0 i s.chip 0x28 d) ∧
  (∀ (s : Chip) (c : ChIx) (o : OpIx), (s.nativeTick.1.op c o).keyLatch = (s.op c o).keyLatch) ∧
  (∀ c o, (Chip.reset.op c o).keyLatch = false)

/-- 40_phase_generator.md R128 with R127: a tick adds the increment of the state the channels see to every phase, channel 5's with the
DAC on or off; a phase starts from 0 in exactly the ticks whose CSM trigger keys its operator on; an instruction sets a phase to 0
exactly where it keys the operator on, and writes no other. -/
def Obligations.PhaseWrittenOnlyByTickAndKeyOn : Prop :=
  (∀ (s : Chip) (c : ChIx) (o : OpIx),
    (s.nativeTick.1.op c o).phase =
      (if c = .ch2 ∧ s.timerA.overflows = true ∧ s.ch3Mode = .csm then 0 else (s.op c o).phase) +
        s.beforeChannels.increment c o) ∧
  (∀ (i : Instr) (s t : State) (c : ChIx) (o : OpIx), exec i s = .next t →
    (t.chip.op c o).phase =
      if (s.chip.op c o).keyLatch = false ∧ (t.chip.op c o).keyLatch = true then 0 else (s.chip.op c o).phase)

/-- A native tick keeps these fields: the operators' register fields and key latches, the channels, and the address latches, DAC,
LFO controls, timer controls, mode, override registers, high-byte latches, busy time and status cache. -/
def Obligations.TickKeepsRegisterFields : Prop :=
  ∀ s : Chip, let t := s.nativeTick.1
    (∀ c o, let x := s.op c o; let y := t.op c o
      y.dt = x.dt ∧ y.mul = x.mul ∧ y.tl = x.tl ∧ y.rs = x.rs ∧ y.ar = x.ar ∧ y.d1r = x.d1r ∧ y.d2r = x.d2r ∧
      y.rr = x.rr ∧ y.d1l = x.d1l ∧ y.am = x.am ∧ y.ssg = x.ssg ∧ y.keyLatch = x.keyLatch) ∧
    t.ch = s.ch ∧ t.addrLatch0 = s.addrLatch0 ∧ t.addrLatch1 = s.addrLatch1 ∧ t.dacEnable = s.dacEnable ∧
    t.dacSample = s.dacSample ∧ t.lfo.enable = s.lfo.enable ∧ t.lfo.freq = s.lfo.freq ∧
    t.timerA.period = s.timerA.period ∧ t.timerA.load = s.timerA.load ∧ t.timerA.enable = s.timerA.enable ∧
    t.timerB.period = s.timerB.period ∧ t.timerB.load = s.timerB.load ∧ t.timerB.enable = s.timerB.enable ∧
    t.ch3Mode = s.ch3Mode ∧ t.spFnum = s.spFnum ∧ t.spBlock = s.spBlock ∧ t.fnumHiLatch = s.fnumHiLatch ∧
    t.ch3HiLatch = s.ch3HiLatch ∧ t.busyUntil = s.busyUntil ∧ t.statusCache = s.statusCache ∧
    t.statusTime = s.statusTime

/-! ## Timers and CSM -/

/-- 45_timers_csm.md R250, R252, R253: one native tick of the two timers, and when a CSM release is pending after it. -/
def Obligations.TimersCountInATick : Prop :=
  ∀ s : Chip, let t := s.nativeTick.1
    (s.timerA.overflows = true ↔ s.timerA.load = true ∧ s.timerA.cnt.toNat + 1 ≥ 1024 - s.timerA.period.toNat) ∧
    (s.timerA.load = false → t.timerA = s.timerA ∧ t.csmPending = false) ∧
    (s.timerA.load = true → s.timerA.cnt.toNat + 1 ≥ 1024 - s.timerA.period.toNat →
      t.timerA = { s.timerA with cnt := 0, ov := s.timerA.ov || s.timerA.enable } ∧
      (t.csmPending = true ↔ s.ch3Mode = .csm)) ∧
    (s.timerA.load = true → s.timerA.cnt.toNat + 1 < 1024 - s.timerA.period.toNat →
      t.timerA = { s.timerA with cnt := s.timerA.cnt + 1 } ∧ t.csmPending = false) ∧
    (s.timerB.load = false → t.timerB = s.timerB) ∧
    (s.timerB.load = true → s.timerB.sub.toNat < 15 → t.timerB = { s.timerB with sub := s.timerB.sub + 1 }) ∧
    (s.timerB.load = true → s.timerB.sub.toNat = 15 → s.timerB.cnt.toNat + 1 ≥ 256 - s.timerB.period.toNat →
      t.timerB = { s.timerB with sub := 0, cnt := 0, ov := s.timerB.ov || s.timerB.enable }) ∧
    (s.timerB.load = true → s.timerB.sub.toNat = 15 → s.timerB.cnt.toNat + 1 < 256 - s.timerB.period.toNat →
      t.timerB = { s.timerB with sub := 0, cnt := s.timerB.cnt + 1 })

/-- 45_timers_csm.md R261: after a load edge Timer A overflows on every `1024 - periodA`-th tick and Timer B on every
`16 × (256 - periodB)`-th, the counts running from 0. -/
def Obligations.TimerPeriodsAfterLoadEdge : Prop :=
  ∀ (m : Ch3Mode) (rB rA eB eA lB lA : Bool) (s t : State),
    exec (.timerCtrl m rB rA eB eA lB lA) s = .next t →
    (lA = true → s.chip.timerA.load = false → ∀ n : Nat,
      ((t.chip.ticks n).1.timerA.cnt.toNat = n % (1024 - s.chip.timerA.period.toNat)) ∧
      ((t.chip.ticks n).1.timerA.ov =
        (t.chip.timerA.ov || (eA && decide (1024 - s.chip.timerA.period.toNat ≤ n))))) ∧
    (lB = true → s.chip.timerB.load = false → ∀ n : Nat,
      ((t.chip.ticks n).1.timerB.sub.toNat = n % 16) ∧
      ((t.chip.ticks n).1.timerB.cnt.toNat = n / 16 % (256 - s.chip.timerB.period.toNat)) ∧
      ((t.chip.ticks n).1.timerB.ov =
        (t.chip.timerB.ov || (eB && decide (16 * (256 - s.chip.timerB.period.toNat) ≤ n)))))

/-- 45_timers_csm.md R251, R257, R258: the timer step on the operators. A pending release first keys off the operators of channel
2 whose key latch is 0, in any mode; then a Timer A overflow in CSM mode keys on all four, whatever their latch. -/
def Obligations.CsmReleasesThenTriggers : Prop :=
  ∀ s : Chip,
    (∀ o, let x := s.op .ch2 o
      let y := if s.csmPending = true ∧ x.keyLatch = false then x.keyOff else x
      s.timerStep.op .ch2 o =
        if s.timerA.overflows = true ∧ s.ch3Mode = .csm then y.keyOn (s.keyCode .ch2 o) else y) ∧
    (∀ c o, c ≠ .ch2 → s.timerStep.op c o = s.op c o) ∧
    (s.timerStep.csmPending = true ↔ s.timerA.overflows = true ∧ s.ch3Mode = .csm) ∧
    s.timerStep = { s with
      ops := s.timerStep.ops, csmPending := s.timerStep.csmPending, timerA := s.timerA.tick, timerB := s.timerB.tick }

/-! ## LFO -/

/-- 44_lfo.md R230, R231, R232: one native tick of the LFO. -/
def Obligations.LfoStepsInATick : Prop :=
  ∀ s : Chip, let t := s.nativeTick.1
    let period := [108, 77, 71, 67, 62, 44, 8, 5].getD s.lfo.freq.toNat 0
    let n := (s.lfo.step.toNat + 1) % 128
    (s.lfo.enable = false → t.lfo = s.lfo) ∧
    (s.lfo.enable = true → s.lfo.sub + 1 < period → t.lfo = { s.lfo with sub := s.lfo.sub + 1 }) ∧
    (s.lfo.enable = true → period ≤ s.lfo.sub + 1 →
      t.lfo = { s.lfo with sub := 0, step := BitVec.ofNat 7 n, am := if n < 64 then 126 - 2 * n else 2 * (n - 64) })

/-- 44_lfo.md R235: from a `$22` write with the enable bit 0 on, for any number of ticks, the counters stay 0 and the LFO
modulates nothing. -/
def Obligations.DisabledLfoModulatesNothing : Prop :=
  ∀ (f : BitVec 3) (s t : State), exec (.lfo false f) s = .next t → ∀ n : Nat,
    let u := (t.chip.ticks n).1
    u.lfo.sub = 0 ∧ u.lfo.step = 0 ∧ u.lfo.am = 0 ∧ (∀ c, u.amDelta c = 0) ∧ ∀ c o, u.pmDelta c o = 0

/-- 44_lfo.md R236, R237: the phase-modulation delta as the rule's sum over the base table, from the operator's own F-number; it never
exceeds 190 in magnitude, and reaches it both ways. -/
def Obligations.PmDeltaFollowsItsFormula : Prop :=
  (∀ (s : Chip) (c : ChIx) (o : OpIx), s.pmDelta c o = pmDeltaOf s.lfo.step (s.chan c).fms (s.fSrc c o).fnum) ∧
  (∀ (step : BitVec 7) (fms : BitVec 3) (f : BitVec 11),
    let p := step.toNat / 4
    let q := if p / 8 % 2 = 1 then 7 - p % 8 else p % 8
    let base := ([[0, 0, 0, 0, 0, 0, 0, 0], [0, 0, 0, 0, 1, 1, 1, 1], [0, 0, 1, 1, 2, 2, 2, 3], [0, 0, 2, 3, 4, 4, 5, 6],
      [0, 0, 4, 6, 8, 8, 10, 12], [0, 0, 8, 12, 16, 16, 20, 24], [0, 0, 16, 24, 32, 32, 40, 48],
      [0, 0, 32, 48, 64, 64, 80, 96]].getD fms.toNat []).getD q 0
    let d := (([4, 5, 6, 7, 8, 9, 10].filter fun b => f.getLsbD b).map fun b => base / 2 ^ (10 - b)).sum
    pmDeltaOf step fms f = (if 16 ≤ p then -(d : Int) else d) ∧ -190 ≤ pmDeltaOf step fms f ∧ pmDeltaOf step fms f ≤ 190) ∧
  (∃ step, pmDeltaOf step 7 0x7F0 = 190) ∧ ∃ step, pmDeltaOf step 7 0x7F0 = -190

/-! ## Phase generator -/

/-- 40_phase_generator.md R122: the two low key-code bits as a function of `f[10:7]`; above them stands the block. -/
def Obligations.KeyCodeLowBits : Prop :=
  ∀ q : Freq, (keyCodeOf q).toNat =
    4 * q.block.toNat + [0, 0, 0, 0, 0, 0, 0, 1, 2, 3, 3, 3, 3, 3, 3, 3].getD (q.fnum.toNat / 128) 0

/-- 40_phase_generator.md R123: the detune table is the rule's formula, for every magnitude and key code. -/
def Obligations.DetuneTableFollowsItsFormula : Prop :=
  ∀ (m : BitVec 2) (k : BitVec 5), detuneDelta m k =
    if m.toNat = 0 then 0
    else
      let k' := min k.toNat 28
      let s := k' / 4 + 9 + (if m.toNat = 3 then 3 else m.toNat / 2 * 2)
      [16, 17, 19, 20, 22, 24, 27, 29].getD (s % 2 * 4 + k' % 4) 0 / 2 ^ (9 - s / 2)

/-- 40_phase_generator.md R120: whose frequency an operator uses, for its key code and its increment. -/
def Obligations.EffectiveFrequencySource : Prop :=
  ∀ (s : Chip) (c : ChIx) (o : OpIx),
    (s.fSrc c o =
      if c = .ch2 ∧ s.ch3Mode ≠ .normal ∧ o = .op1 then ⟨s.spFnum.op1, s.spBlock.op1⟩
      else if c = .ch2 ∧ s.ch3Mode ≠ .normal ∧ o = .op2 then ⟨s.spFnum.op2, s.spBlock.op2⟩
      else if c = .ch2 ∧ s.ch3Mode ≠ .normal ∧ o = .op3 then ⟨s.spFnum.op3, s.spBlock.op3⟩
      else ⟨(s.chan c).fnum, (s.chan c).block⟩) ∧
    s.keyCode c o = keyCodeOf (s.fSrc c o) ∧
    s.increment c o = incrementOf (s.fSrc c o) (s.pmDelta c o) (s.op c o).dt (s.op c o).mul

/-- 40_phase_generator.md R124, R125, R129: the increment of every frequency, modulation delta, detune and multiplier: the modulated
F-number wraps in 12 bits, detune adds or subtracts its table value in 17 bits, the product wraps in 20. Without detune and
modulation it is the source's formula. -/
def Obligations.IncrementFollowsItsFormula : Prop :=
  (∀ (s : Chip) (c : ChIx) (o : OpIx),
    s.increment c o = incrementOf (s.fSrc c o) (s.pmDelta c o) (s.op c o).dt (s.op c o).mul) ∧
  (∀ (q : Freq) (delta : Int) (dt : BitVec 3) (mul : BitVec 4),
    let fm12 := ((q.fnum.toNat * 2 + delta) % 4096).toNat
    let x := fm12 * 2 ^ q.block.toNat / 4 % 2 ^ 17
    let d := detuneDelta (BitVec.ofNat 2 (dt.toNat % 4)) (keyCodeOf q)
    let base := if dt.toNat < 4 then (x + d) % 2 ^ 17 else (x + 2 ^ 17 - d) % 2 ^ 17
    (incrementOf q delta dt mul).toNat = (if mul.toNat = 0 then base / 2 else base * mul.toNat) % 2 ^ 20) ∧
  (∀ (q : Freq) (dt : BitVec 3) (mul : BitVec 4), dt.toNat % 4 = 0 →
    (incrementOf q 0 dt mul).toNat =
      (if mul.toNat = 0 then q.fnum.toNat * 2 ^ q.block.toNat / 2 / 2
       else q.fnum.toNat * 2 ^ q.block.toNat / 2 * mul.toNat) % 2 ^ 20)

/-! ## Envelope generator -/

/-- 41_envelope_generator.md R141 to R145, R155: the register rate of each state, the effective rate, the increment a rate gives on a
counter value, the sustain levels; and the properties an envelope step has by them. -/
def Obligations.EnvelopeStepProperties : Prop :=
  (∀ (x : Operator) (st : EgState) (kc : BitVec 5),
    x.rate5 st =
      (match st with
       | .attack => x.ar.toNat
       | .decay => x.d1r.toNat
       | .sustain => x.d2r.toNat
       | .release => 2 * x.rr.toNat + 1) ∧
    x.effRate st kc = Machine.effRate (x.rate5 st) kc x.rs) ∧
  (∀ (r5 : Nat) (kc : BitVec 5) (rs : BitVec 2),
    Machine.effRate r5 kc rs = if r5 = 0 then 0 else min (2 * r5 + kc.toNat / 2 ^ (3 - rs.toNat)) 63) ∧
  (∀ (rate : Nat) (cnt : BitVec 12), egInc rate cnt =
    if rate < 4 then 0
    else if rate < 48 then
      let gate := 2 ^ (11 - rate / 4)
      if cnt.toNat % gate = 0 then
        ([[0, 1, 0, 1, 0, 1, 0, 1], [0, 1, 0, 1, 1, 1, 0, 1], [0, 1, 1, 1, 0, 1, 1, 1],
          [0, 1, 1, 1, 1, 1, 1, 1]].getD (rate % 4) []).getD (cnt.toNat / gate % 8) 0
      else 0
    else
      ([[1, 1, 1, 1, 1, 1, 1, 1], [1, 1, 1, 2, 1, 1, 1, 2], [1, 2, 1, 2, 1, 2, 1, 2], [1, 2, 2, 2, 1, 2, 2, 2],
        [2, 2, 2, 2, 2, 2, 2, 2], [2, 2, 2, 4, 2, 2, 2, 4], [2, 4, 2, 4, 2, 4, 2, 4], [2, 4, 4, 4, 2, 4, 4, 4],
        [4, 4, 4, 4, 4, 4, 4, 4], [4, 4, 4, 8, 4, 4, 4, 8], [4, 8, 4, 8, 4, 8, 4, 8], [4, 8, 8, 8, 4, 8, 8, 8],
        [8, 8, 8, 8, 8, 8, 8, 8], [8, 8, 8, 8, 8, 8, 8, 8], [8, 8, 8, 8, 8, 8, 8, 8],
        [8, 8, 8, 8, 8, 8, 8, 8]].getD (rate - 48) []).getD (cnt.toNat % 8) 0) ∧
  (∀ d1l : BitVec 4, sustainLevel d1l = if d1l.toNat = 15 then 992 else 32 * d1l.toNat) ∧
  ∀ (x : Operator) (kc : BitVec 5) (cnt : BitVec 12), let y := x.egStep kc cnt
    (y.level.toNat ≤ 0x3FF) ∧
    (x.egState ≠ .release → x.rate5 x.egState = 0 → (x.ssgOn = true → x.egState = .attack ∨ x.level.toNat < 0x200) →
      y.level = x.level) ∧
    (x.egState = .attack → y.level.toNat ≤ x.level.toNat ∧
      (y.egState = .decay ↔
        62 ≤ x.effRate .attack kc ∨ (egInc (x.effRate .attack kc) cnt ≠ 0 ∧ y.level = 0)) ∧
      (y.egState = .decay → y.level = 0) ∧ (y.egState ≠ .decay → y.egState = .attack)) ∧
    (x.egState = .decay → (x.ssgOn = true → x.level.toNat < 0x200) → sustainLevel x.d1l ≤ x.level.toNat →
      y = { x with egState := .sustain }) ∧
    (x.egState = .decay → x.level.toNat < sustainLevel x.d1l → y.egState ≠ .sustain)

/-- 41_envelope_generator.md R146 to R150, R156: all state transitions, with the events that make them; the level and the SSG-EG
inversion every envelope step leaves; and that a step writes nothing else of the operator. -/
def Obligations.EnvelopeTransitions : Prop :=
  ∀ (x : Operator) (kc : BitVec 5) (cnt : BitVec 12),
    (62 ≤ x.effRate .attack kc → (x.keyOn kc).egState = .decay ∧ (x.keyOn kc).level = 0) ∧
    (x.effRate .attack kc < 62 → (x.keyOn kc).egState = .attack) ∧
    (x.keyOff.egState = .release) ∧ (x.egState = .release → x.keyOff = x) ∧
    (let y := x.egStep kc cnt
     let l := x.level.toNat
     let inc := egInc (x.effRate x.egState kc) cnt
     let v : Int := l + -(l + 1 : Int) * inc / 16
     let passed := x.egState = .decay ∧ sustainLevel x.d1l ≤ l
     let ssg := x.ssg.getLsbD 3 = true
     let after :=
       if passed then l
       else if ssg then (if l < 0x200 then min (l + 4 * inc) 0x3FF else l)
       else min (l + inc) 0x3FF
     y = { x with egState := y.egState, level := y.level, ssgInv := y.ssgInv } ∧
     match x.egState with
     | .attack =>
       y.ssgInv = x.ssgInv ∧
       if 62 ≤ x.effRate .attack kc ∨ (inc ≠ 0 ∧ v ≤ 0) then y.egState = .decay ∧ y.level = 0
       else y.egState = .attack ∧ y.level.toNat = v
     | .release =>
       y.ssgInv = x.ssgInv ∧ y.egState = .release ∧ y.level.toNat = if ssg ∧ 0x200 ≤ after then 0x3FF else after
     | st =>
       if ssg ∧ 0x200 ≤ after then
         if x.ssg.getLsbD 0 then
           y.egState = (if passed then .sustain else st) ∧
           y.ssgInv = (if x.ssg.getLsbD 1 then !x.ssg.getLsbD 2 else x.ssgInv) ∧
           y.level.toNat = if y.ssgInv then after else 0x3FF
         else
           y.ssgInv = (if x.ssg.getLsbD 1 then !x.ssgInv else x.ssgInv) ∧
           if 62 ≤ x.effRate .attack kc then y.egState = .decay ∧ y.level = 0
           else y.egState = .attack ∧ y.level.toNat = after
       else y.egState = (if passed then .sustain else st) ∧ y.ssgInv = x.ssgInv ∧ y.level.toNat = after)

/-- 41_envelope_generator.md R152, R153: what a key-on and a key-off write, every other field of the operator kept; and a key-off is
inaudible: the level the output stage sees (R151) is the same before and after it. -/
def Obligations.KeyOnAndKeyOffWriteTheEnvelope : Prop :=
  ∀ (x : Operator) (kc : BitVec 5),
    (x.keyOn kc =
      { x with
        phase := 0
        ssgInv := x.ssg.getLsbD 3 && x.ssg.getLsbD 2
        level := if 62 ≤ effRate x.ar.toNat kc x.rs then 0 else x.level
        egState := if 62 ≤ effRate x.ar.toNat kc x.rs then .decay else .attack }) ∧
    (∃ l : BitVec 10, x.keyOff = { x with egState := .release, level := l } ∧
      l.toNat =
        if x.egState ≠ .release ∧ x.ssg.getLsbD 3 = true ∧ x.ssgInv = true then (0x600 - x.level.toNat) % 0x400
        else x.level.toNat) ∧
    x.keyOff.egOut = x.egOut

/-- 41_envelope_generator.md R140 with 47_tick_and_host.md R320: a tick counts one sample and one third of an envelope tick; on every
third the envelope counter steps, skipping 0, and every operator, as the timers left it, takes one envelope step with the new
counter; on the other ticks its envelope stays as the timers left it. The channel part keeps state, level and inversion. -/
def Obligations.TickRunsTheEnvelopeEveryThirdTime : Prop :=
  ∀ s : Chip, s.egSub ≤ 2 → let t := s.nativeTick.1
    t.sampleCount = s.sampleCount + 1 ∧ t.egSub = (s.egSub + 1) % 3 ∧
    t.egCounter.toNat =
      (if s.egSub = 2 then (if s.egCounter.toNat = 4095 then 1 else s.egCounter.toNat + 1) else s.egCounter.toNat) ∧
    (s.egSub ≠ 2 → s.beforeChannels.ops = s.timerStep.ops) ∧
    ∀ c o, let x := s.timerStep.op c o
      let y := if s.egSub = 2 then x.egStep (s.keyCode c o) t.egCounter else x
      (t.op c o).egState = y.egState ∧ (t.op c o).level = y.level ∧ (t.op c o).ssgInv = y.ssgInv

/-! ## Operator output, router, mix -/

/-- 42_operator_output.md R181 to R183, R190: the table index of a phase index, the log-to-linear table as the rounded power of two it
is, the output by the two tables, that of the log-sine table's shape which R180 states, and the properties of the conversion. -/
def Obligations.OutputConversionProperties : Prop :=
  (∀ idx : BitVec 10, (quarterIndex idx).toNat =
    if idx.getLsbD 8 then 255 - idx.toNat % 256 else idx.toNat % 256) ∧
  (∀ f < 256, (2 * pow2 f - 1) ^ 256 ≤ 2 ^ (11 * 256 + 255 - f) ∧ 2 ^ (11 * 256 + 255 - f) < (2 * pow2 f + 1) ^ 256) ∧
  (logSin 0 = 2137 ∧ (∀ i j : BitVec 8, i.toNat ≤ j.toNat → logSin j ≤ logSin i) ∧ ∀ i : BitVec 8, 248 ≤ i.toNat → logSin i = 0) ∧
  (∀ (idx : BitVec 10) (att : Nat),
    let lvl := logSin (quarterIndex idx) + 4 * att
    let mag := 4 * pow2 (lvl % 256) / 2 ^ (lvl / 256)
    opOut idx att = if idx.getLsbD 9 then -(mag : Int) else mag) ∧
  (∀ idx : BitVec 10, opOut idx 0x3FF = 0) ∧
  (∀ idx : BitVec 10, 248 ≤ (quarterIndex idx).toNat → opOut idx 0 = 8168 ∨ opOut idx 0 = -8168) ∧
  (∀ (idx : BitVec 10) (att : Nat), opOut idx att = -opOut (idx ^^^ 0x200) att) ∧
  (∀ (idx : BitVec 10) (att : Nat), opOut idx att = opOut (idx ^^^ 0x1FF) att) ∧
  (∀ (idx : BitVec 10) (att : Nat), 248 ≤ (quarterIndex idx).toNat → att ≤ 0x3FF → (opOut idx att ≠ 0 ↔ att ≤ 831))

/-- 43_algorithm_router.md R209: the ranges of every signal, from histories within the range of 10_state.md R36. -/
def Obligations.SignalRanges : Prop :=
  (∀ (idx : BitVec 10) (att : Nat), -8168 ≤ opOut idx att ∧ opOut idx att ≤ 8168) ∧
  (∀ (s : Chip) (c : ChIx) (o : OpIx), -8168 ≤ modIn (s.chan c).alg o (s.chanOuts c) ∧
    modIn (s.chan c).alg o (s.chanOuts c) ≤ 8168) ∧
  (∀ (s : Chip) (c : ChIx), (s.op c .op1).Inv → -2042 ≤ s.feedback c ∧ s.feedback c ≤ 2042) ∧
  (∀ (s : Chip) (c : ChIx), -8192 ≤ s.chanSample c ∧ s.chanSample c ≤ 8160) ∧
  (∀ (s : Chip) (c : ChIx) (en : Bool), -8320 ≤ ladder (s.chanSample c) en ∧ ladder (s.chanSample c) en ≤ 8288) ∧
  (∀ s : Chip, inSampleRange s.nativeTick.2.1 ∧ inSampleRange s.nativeTick.2.2)

/-- 43_algorithm_router.md R200: the topology of the eight algorithms, modulators and carriers; every modulator has a lower number than
what it modulates. -/
def Obligations.AlgorithmTopology : Prop :=
  (∀ alg : BitVec 3, mods alg .op1 = [] ∧
    (mods alg .op2, mods alg .op3, mods alg .op4) =
      [([.op1], [.op2], [.op3]), ([], [.op1, .op2], [.op3]), ([], [.op2], [.op1, .op3]), ([.op1], [], [.op2, .op3]),
       ([.op1], [], [.op3]), ([.op1], [.op1], [.op1]), ([.op1], [], []), ([], [], [])].getD alg.toNat ([], [], []) ∧
    (carriers alg).1 :: (carriers alg).2 =
      [[.op4], [.op4], [.op4], [.op4], [.op2, .op4], [.op2, .op3, .op4], [.op2, .op3, .op4],
       [.op1, .op2, .op3, .op4]].getD alg.toNat []) ∧
  (∀ (alg : BitVec 3) (o j : OpIx), j ∈ mods alg o → j.number < o.number) ∧
  (∀ alg : BitVec 3, (carriers alg).2.length + 1 = [1, 1, 1, 1, 2, 3, 3, 4].getD alg.toNat 0)

/-- 43_algorithm_router.md R205: one carrier is quantized and not clamped; several are clamped after each addition, which is not the same
as clamping their sum. -/
def Obligations.CarrierSumClampsAfterEachAddition : Prop :=
  (carrierSum 5 ⟨0, 8160, 8160, -8192⟩ = -32 ∧ clampAcc (8160 + 8160 + -8192) = 8128) ∧
  ∀ (alg : BitVec 3) (out : PerOp Int),
    (alg.toNat ≤ 3 → carrierSum alg out = out.op4 / 32 * 32) ∧
    (alg.toNat ≤ 3 → -8168 ≤ out.op4 → out.op4 ≤ 8168 → -8192 ≤ carrierSum alg out ∧ carrierSum alg out ≤ 8160) ∧
    (4 ≤ alg.toNat → -8176 ≤ carrierSum alg out ∧ carrierSum alg out ≤ 8160) ∧
    (alg.toNat = 4 → carrierSum alg out = clampAcc (out.op2 / 32 * 32 + out.op4 / 32 * 32)) ∧
    (alg.toNat = 5 ∨ alg.toNat = 6 → carrierSum alg out =
      clampAcc (clampAcc (out.op2 / 32 * 32 + out.op3 / 32 * 32) + out.op4 / 32 * 32)) ∧
    (alg.toNat = 7 → carrierSum alg out =
      clampAcc (clampAcc (clampAcc (out.op1 / 32 * 32 + out.op2 / 32 * 32) + out.op3 / 32 * 32) + out.op4 / 32 * 32))

/-- 43_algorithm_router.md R206: the DAC replaces channel 5's sample and stops nothing: phases, envelopes and histories are those
of the same chip with the DAC off. -/
def Obligations.DacReplacesOnlyChannel5Sample : Prop :=
  (∀ s : Chip, s.dacEnable = true → s.chanSample .ch5 = ((s.dacSample.toNat : Int) - 128) * 64 ∧
    -8192 ≤ s.chanSample .ch5 ∧ s.chanSample .ch5 ≤ 8128) ∧
  (∀ (s : Chip) (c : ChIx), c ≠ .ch5 ∨ s.dacEnable = false → s.chanSample c = carrierSum (s.chan c).alg (s.chanOuts c)) ∧
  (∀ (s : Chip) (en : Bool) (v : Byte),
    ({ s with dacEnable := en, dacSample := v } : Chip).nativeTick.1 = { s.nativeTick.1 with dacEnable := en, dacSample := v })

/-- 43_algorithm_router.md R207, R208: the ladder of each side, the mix of the channel samples made from this tick's operator outputs
(those the tick leaves in the histories) or the DAC value, and its range. -/
def Obligations.MixSumsLadderedChannels : Prop :=
  (∀ v : Int, ladder v false = (if v ≥ 0 then 128 else -128) ∧ ladder v true = (if v ≥ 0 then v + 128 else v - 128)) ∧
  (∀ s : Chip, let t := s.nativeTick.1
    let v : ChIx → Int := fun c =>
      if c = .ch5 ∧ s.dacEnable = true then ((s.dacSample.toNat : Int) - 128) * 64
      else carrierSum (s.chan c).alg ⟨(t.op c .op1).hist0, (t.op c .op2).hist0, (t.op c .op3).hist0, (t.op c .op4).hist0⟩
    let l := fun c => ladder (v c) (s.chan c).panL
    let r := fun c => ladder (v c) (s.chan c).panR
    s.nativeTick.2 =
      ((l .ch0 + l .ch1 + l .ch2 + l .ch3 + l .ch4 + l .ch5) / 2, (r .ch0 + r .ch1 + r .ch2 + r .ch3 + r .ch4 + r .ch5) / 2) ∧
    inSampleRange s.nativeTick.2.1 ∧ inSampleRange s.nativeTick.2.2)

/-- 42_operator_output.md R181, R184, R185, R187 to R189 with 41_envelope_generator.md R151, 43_algorithm_router.md R202 and 44_lfo.md
R233, R234: every tick shifts every operator's history, channel 5's with the DAC on and unused operators' too; the new entry is the
output of that tick, read at the phase already advanced, with the feedback of the old history for operator 1 and the halved outputs of
the same tick for the others, at the attenuation that total level, envelope, inversion and amplitude modulation of that tick give. -/
def Obligations.EveryOperatorIsEvaluatedEveryTick : Prop :=
  (∀ (phase : BitVec 20) (m : Int), ((phaseIndex phase m).toNat : Int) = (phase.toNat / 1024 + m) % 1024) ∧
  (∀ (fb : BitVec 3) (h0 h1 : Int),
    feedbackOf fb h0 h1 = if fb.toNat = 0 then 0 else (h0 + h1) / (2 ^ (10 - fb.toNat) : Nat)) ∧
  ∀ (s : Chip) (c : ChIx), let t := s.nativeTick.1
    let out : PerOp Int := ⟨(t.op c .op1).hist0, (t.op c .op2).hist0, (t.op c .op3).hist0, (t.op c .op4).hist0⟩
    let att : OpIx → Nat := fun o =>
      let x := t.op c o
      let eg :=
        if x.ssg.getLsbD 3 = true ∧ x.ssgInv = true ∧ x.egState ≠ .release then (0x600 - x.level.toNat) % 0x400
        else x.level.toNat
      let a := min (8 * x.tl.toNat + eg) 0x3FF
      if x.am then min (a + t.lfo.am / 2 ^ [8, 3, 1, 0].getD (s.chan c).ams.toNat 0) 0x3FF else a
    (∀ o, (t.op c o).hist1 = (s.op c o).hist0) ∧
    (t.op c .op1).hist0 = opOut (phaseIndex (t.op c .op1).phase
      (feedbackOf (s.chan c).fb (s.op c .op1).hist0 (s.op c .op1).hist1)) (att .op1) ∧
    ∀ o, o ≠ .op1 → (t.op c o).hist0 = opOut (phaseIndex (t.op c o).phase
      (((mods (s.chan c).alg o).map fun j => out.get j / 2).sum)) (att o)

/-! ## Host adapter -/

/-- 47_tick_and_host.md R327: splitting an advance changes neither the state nor the buffer. -/
def Obligations.AdvanceSplits : Prop :=
  ∀ (clock rate a b : Nat) (x : Chip × Adapter),
    Machine.advance clock rate b (Machine.advance clock rate a x) = Machine.advance clock rate (a + b) x

/-- 47_tick_and_host.md R324: the resampler appends the pair as often as the accumulator holds a clock's worth, and keeps the rest. -/
def Obligations.ResamplerAppendsWholePairs : Prop :=
  ∀ (clock rate : Nat) (l r : Int) (a : Adapter), 0 < clock →
    Adapter.resample clock rate (l, r) a =
      { a with
        resampleAcc := (a.resampleAcc + rate * 144) % clock
        outBuf := a.outBuf ++ (List.replicate ((a.resampleAcc + rate * 144) / clock) [l, r]).flatten }

/-- 47_tick_and_host.md R328: the source's frame, from any chip and an adapter at its power-on state. -/
def Obligations.FrameGives887Ticks : Prop :=
  ∀ s : Chip, let x := Machine.advance 7670453 44100 (7670453 / 60) (s, Adapter.reset)
    7670453 / 60 = 127840 ∧ x.1 = (s.ticks 887).1 ∧ x.2.cycleAcc = 112 ∧ x.2.outBuf.length = 1468

/-! ## The invariant -/

/-- The invariant holds after power-on. -/
def Obligations.PowerOnStateMeetsInvariant : Prop := State.reset.Inv

/-- Every step keeps the invariant: the ranges of the histories, the LFO counters, the sub-clock, the accumulators and the output
samples, the reserved status bits, the time stamps. -/
def Obligations.StepKeepsInvariant : Prop :=
  ∀ s t : State, s.Inv → step s = .next t → t.Inv
end

