-- ==== Sys2Proof/Laws/Decode.lean ====
section
/-! SUPPORT. The value of an assembled word, and its parts back again. -/

namespace Sys2Proof

/-- The number a concatenation is. -/
theorem append_toNat {m n : Nat} (x : BitVec m) (y : BitVec n) : (x ++ y).toNat = x.toNat * 2 ^ n + y.toNat := by
  rw [BitVec.toNat_append, ← Nat.shiftLeft_add_eq_or_of_lt y.isLt, Nat.shiftLeft_eq]

/-- The number a slice is. -/
theorem slice_toNat {n : Nat} (x : BitVec n) (lo len : Nat) :
    (x.extractLsb' lo len).toNat = x.toNat / 2 ^ lo % 2 ^ len := by
  rw [BitVec.extractLsb'_toNat, Nat.shiftRight_eq_div_pow]

/-- The number of a format P word. -/
theorem portWord_toNat (p : BitVec 3) (v : Byte) : (portWord p v).toNat = p.toNat * 256 + v.toNat :=
  append_toNat p v

/-- The number of a format R word. -/
theorem regWord_toNat (p : Part) (a d : Byte) :
    (regWord p a d).toNat = (partBit p).toNat * 65536 + a.toNat * 256 + d.toNat := by
  have h : (regWord p a d).toNat = (partBit p ++ a).toNat * 2 ^ 8 + d.toNat := append_toNat (partBit p ++ a) d
  rw [h, append_toNat]
  omega

/-- The address and data of a format R word. -/
theorem regWord_addr (p : Part) (a d : Byte) : (regWord p a d).extractLsb' 8 8 = a := by
  apply BitVec.eq_of_toNat_eq
  rw [slice_toNat, regWord_toNat]
  omega

theorem regWord_data (p : Part) (a d : Byte) : (regWord p a d).extractLsb' 0 8 = d := by
  apply BitVec.eq_of_toNat_eq
  rw [slice_toNat, regWord_toNat]
  omega

/-- The part of a format R word. -/
theorem regWord_part (p : Part) (a d : Byte) : partOf ((regWord p a d).getLsbD 16) = p := by
  have h : (regWord p a d).getLsbD 16 = decide ((partBit p).toNat = 1) := by
    rw [BitVec.getLsbD, Nat.testBit_eq_decide_div_mod_eq, regWord_toNat]
    congr 1
    have := a.isLt
    have := d.isLt
    have := (partBit p).isLt
    apply propext
    omega
  rw [h]
  cases p <;> rfl

/-- A format R word decodes by its part, its address and its data. -/
theorem decodeReg_regWord (p : Part) (a d : Byte) : decodeReg (regWord p a d) = decodeRegFields p a d := by
  rw [decodeReg, regWord_part, regWord_addr, regWord_data]

/-- Every format R word is assembled from a part, an address and a data byte. -/
theorem exists_regWord (w : BitVec 17) : ∃ p a d, w = regWord p a d := by
  refine ⟨partOf (w.getLsbD 16), w.extractLsb' 8 8, w.extractLsb' 0 8, ?_⟩
  apply BitVec.eq_of_toNat_eq
  rw [regWord_toNat, slice_toNat, slice_toNat]
  have h : (partBit (partOf (w.getLsbD 16))).toNat = w.toNat / 65536 % 2 := by
    rw [BitVec.getLsbD, Nat.testBit_eq_decide_div_mod_eq]
    have : w.toNat / 65536 % 2 = 0 ∨ w.toNat / 65536 % 2 = 1 := by omega
    rcases this with h | h <;> simp [partOf, partBit, h]
  rw [h]
  omega

/-- Every format P word is assembled from three selector bits and a byte. -/
theorem exists_portWord (w : BitVec 11) : ∃ p v, w = portWord p v := by
  refine ⟨w.extractLsb' 8 3, w.extractLsb' 0 8, ?_⟩
  apply BitVec.eq_of_toNat_eq
  rw [portWord_toNat, slice_toNat, slice_toNat]
  omega

/-- A format P word, numbered as the opcode table numbers it, is read back. -/
theorem OpWord.ofTable_port (w : BitVec 11) : OpWord.ofTable (OpWord.port w).nbits (OpWord.port w).toNat = some (.port w) := by
  simpa [OpWord.ofTable, OpWord.nbits, OpWord.toNat] using w.isLt

/-- A format R word, numbered as the opcode table numbers it, is read back. -/
theorem OpWord.ofTable_reg (w : BitVec 17) : OpWord.ofTable (OpWord.reg w).nbits (OpWord.reg w).toNat = some (.reg w) := by
  simpa [OpWord.ofTable, OpWord.nbits, OpWord.toNat] using w.isLt

end Sys2Proof
end

