-- ==== Sys2Proof/Laws/Envelope.lean ====
section
/-! SUPPORT. What the envelope's operations leave alone, and the attack curve. -/

namespace Sys2Proof.Machine

variable (x : Operator) (kc : BitVec 5) (cnt : BitVec 12)

/-- From `x` to `y` only the envelope moved: its state, its level and the SSG-EG inversion. -/
def Operator.OnlyEnvelope (x y : Operator) : Prop := y = { x with ssgInv := y.ssgInv, egState := y.egState, level := y.level }

/-- A boundary action moves only the envelope (41_envelope_generator.md R150). -/
theorem ssgCheck_onlyEnvelope : x.OnlyEnvelope (x.ssgCheck kc) := by
  unfold Operator.ssgCheck Operator.ssgHold Operator.ssgRepeat Operator.toDecay
  split
  · split
    · rfl
    · simp only
      split <;> split <;> rfl
  · rfl

/-- Moving the envelope before and after is moving the envelope. -/
theorem OnlyEnvelope.trans {x y z : Operator} (h : x.OnlyEnvelope y) (h' : y.OnlyEnvelope z) : x.OnlyEnvelope z := by
  unfold Operator.OnlyEnvelope at *
  rw [h'] at *
  rw [h]

/-- An envelope step moves only the envelope: phase, history, key latch and every register field are kept (R146..R149). -/
theorem egStep_onlyEnvelope : x.OnlyEnvelope (x.egStep kc cnt) := by
  unfold Operator.egStep
  split
  · unfold Operator.attackStep Operator.toDecay
    split
    · rfl
    · simp only
      split
      · split <;> rfl
      · rfl
  · unfold Operator.decayStep
    refine OnlyEnvelope.trans ?_ (ssgCheck_onlyEnvelope _ kc)
    split <;> rfl
  · unfold Operator.sustainStep
    refine OnlyEnvelope.trans ?_ (ssgCheck_onlyEnvelope _ kc)
    rfl
  · rfl

/-- A key-off moves only the envelope (R153). -/
theorem keyOff_onlyEnvelope : x.OnlyEnvelope x.keyOff := by
  unfold Operator.keyOff
  split <;> rfl

/-- An attack increment never raises the level (R146). -/
theorem attackLevel_le (level : BitVec 10) (inc : Nat) : attackLevel level inc ≤ level.toNat := by
  have h : (-(level.toNat : Int) - 1) * inc ≤ 0 := Int.mul_nonpos_of_nonpos_of_nonneg (by omega) (by omega)
  have : asr ((-(level.toNat : Int) - 1) * inc) 4 ≤ 0 := by
    rw [asr, Int.shiftRight_eq_div_pow]
    omega
  unfold attackLevel
  omega

end Sys2Proof.Machine
end

