-- ==== Sys2Proof/Laws/Host.lean ====
section
/-! SUPPORT. The host's loops: how many ticks, how many rounds, and what a call splits into. -/

namespace Sys2Proof.Machine

/-- As many samples as ticks (47_tick_and_host.md R321). -/
theorem ticks_length (n : Nat) (s : Chip) : (s.ticks n).2.length = n := by
  induction n generalizing s with
  | zero => rfl
  | succ n ih => simp [Chip.ticks, ih]

/-- Ticking `m + n` times is ticking `m` times and then `n` times. -/
theorem ticks_add (m n : Nat) (s : Chip) :
    (s.ticks (m + n)).1 = ((s.ticks m).1.ticks n).1 ∧ (s.ticks (m + n)).2 = (s.ticks m).2 ++ ((s.ticks m).1.ticks n).2 := by
  induction m generalizing s with
  | zero => simp [Chip.ticks]
  | succ m ih =>
    rw [Nat.succ_add]
    simp [Chip.ticks, ih]

/-- What holds of a block and every tick keeps holds after any number of ticks. -/
theorem ticks_invariant {P : Chip → Prop} (step : ∀ s, P s → P s.nativeTick.1) (n : Nat) (s : Chip) (h : P s) :
    P (s.ticks n).1 := by
  induction n generalizing s with
  | zero => exact h
  | succ n ih => exact ih _ (step s h)

/-- A round of the resampler's loop that has enough left (47_tick_and_host.md R324). -/
theorem emit_succ_of_le {clockHz : Nat} (lr : Int × Int) (n : Nat) {a : Adapter} (h : clockHz ≤ a.resampleAcc) :
    Adapter.emit clockHz lr (n + 1) a =
      Adapter.emit clockHz lr n { a with resampleAcc := a.resampleAcc - clockHz, outBuf := a.outBuf ++ [lr.1, lr.2] } := by
  simp [Adapter.emit, h]

/-- The resampler's loop stops where too little is left, however many rounds are allowed. -/
theorem emit_of_lt {clockHz : Nat} (lr : Int × Int) (n : Nat) {a : Adapter} (h : a.resampleAcc < clockHz) :
    Adapter.emit clockHz lr n a = a := by
  cases n with
  | zero => rfl
  | succ n => simp [Adapter.emit, Nat.not_le.mpr h]

/-- A round of `Advance` that has a tick's cycles left (R323). -/
theorem advanceLoop_succ_of_le {clockHz rateHz : Nat} (n : Nat) (s : Chip) {a : Adapter} (h : 144 ≤ a.cycleAcc) :
    advanceLoop clockHz rateHz (n + 1) (s, a) =
      advanceLoop clockHz rateHz n
        (s.nativeTick.1, Adapter.resample clockHz rateHz s.nativeTick.2 { a with cycleAcc := a.cycleAcc - 144 }) := by
  simp [advanceLoop, h]

/-- `Advance`'s loop stops where fewer cycles are left than a tick takes, however many rounds are allowed. -/
theorem advanceLoop_of_lt {clockHz rateHz : Nat} (n : Nat) (s : Chip) {a : Adapter} (h : a.cycleAcc < 144) :
    advanceLoop clockHz rateHz n (s, a) = (s, a) := by
  cases n with
  | zero => rfl
  | succ n => simp [advanceLoop, Nat.not_le.mpr h]

/-- The resampler does not touch the cycle accumulator. -/
theorem emit_cycleAcc (clockHz : Nat) (lr : Int × Int) (n : Nat) (a : Adapter) :
    (Adapter.emit clockHz lr n a).cycleAcc = a.cycleAcc := by
  induction n generalizing a with
  | zero => rfl
  | succ n ih =>
    unfold Adapter.emit
    split
    · rw [ih]
    · rfl

end Sys2Proof.Machine
end

