-- ==== Sys2Proof/Laws/State.lean ====
section
/-! SUPPORT. One lemma per field per update of the block's state: what each named update leaves alone. -/

namespace Sys2Proof.Machine

variable (s : Chip)

/-! ### `setOp` -/

@[simp] theorem setOp_ch (c : ChIx) (o : OpIx) (x : Operator) : (s.setOp c o x).ch = s.ch := rfl
@[simp] theorem setOp_addrLatch0 (c : ChIx) (o : OpIx) (x : Operator) : (s.setOp c o x).addrLatch0 = s.addrLatch0 := rfl
@[simp] theorem setOp_addrLatch1 (c : ChIx) (o : OpIx) (x : Operator) : (s.setOp c o x).addrLatch1 = s.addrLatch1 := rfl
@[simp] theorem setOp_dacEnable (c : ChIx) (o : OpIx) (x : Operator) : (s.setOp c o x).dacEnable = s.dacEnable := rfl
@[simp] theorem setOp_dacSample (c : ChIx) (o : OpIx) (x : Operator) : (s.setOp c o x).dacSample = s.dacSample := rfl
@[simp] theorem setOp_lfo (c : ChIx) (o : OpIx) (x : Operator) : (s.setOp c o x).lfo = s.lfo := rfl
@[simp] theorem setOp_timerA (c : ChIx) (o : OpIx) (x : Operator) : (s.setOp c o x).timerA = s.timerA := rfl
@[simp] theorem setOp_timerB (c : ChIx) (o : OpIx) (x : Operator) : (s.setOp c o x).timerB = s.timerB := rfl
@[simp] theorem setOp_ch3Mode (c : ChIx) (o : OpIx) (x : Operator) : (s.setOp c o x).ch3Mode = s.ch3Mode := rfl
@[simp] theorem setOp_spFnum (c : ChIx) (o : OpIx) (x : Operator) : (s.setOp c o x).spFnum = s.spFnum := rfl
@[simp] theorem setOp_spBlock (c : ChIx) (o : OpIx) (x : Operator) : (s.setOp c o x).spBlock = s.spBlock := rfl
@[simp] theorem setOp_fnumHiLatch (c : ChIx) (o : OpIx) (x : Operator) : (s.setOp c o x).fnumHiLatch = s.fnumHiLatch := rfl
@[simp] theorem setOp_ch3HiLatch (c : ChIx) (o : OpIx) (x : Operator) : (s.setOp c o x).ch3HiLatch = s.ch3HiLatch := rfl
@[simp] theorem setOp_csmPending (c : ChIx) (o : OpIx) (x : Operator) : (s.setOp c o x).csmPending = s.csmPending := rfl
@[simp] theorem setOp_egCounter (c : ChIx) (o : OpIx) (x : Operator) : (s.setOp c o x).egCounter = s.egCounter := rfl
@[simp] theorem setOp_egSub (c : ChIx) (o : OpIx) (x : Operator) : (s.setOp c o x).egSub = s.egSub := rfl
@[simp] theorem setOp_busyUntil (c : ChIx) (o : OpIx) (x : Operator) : (s.setOp c o x).busyUntil = s.busyUntil := rfl
@[simp] theorem setOp_statusCache (c : ChIx) (o : OpIx) (x : Operator) : (s.setOp c o x).statusCache = s.statusCache := rfl
@[simp] theorem setOp_statusTime (c : ChIx) (o : OpIx) (x : Operator) : (s.setOp c o x).statusTime = s.statusTime := rfl
@[simp] theorem setOp_sampleCount (c : ChIx) (o : OpIx) (x : Operator) : (s.setOp c o x).sampleCount = s.sampleCount := rfl

/-! ### `modOp` -/

@[simp] theorem modOp_ch (c : ChIx) (o : OpIx) (f : Operator → Operator) : (s.modOp c o f).ch = s.ch := rfl
@[simp] theorem modOp_addrLatch0 (c : ChIx) (o : OpIx) (f : Operator → Operator) : (s.modOp c o f).addrLatch0 = s.addrLatch0 := rfl
@[simp] theorem modOp_addrLatch1 (c : ChIx) (o : OpIx) (f : Operator → Operator) : (s.modOp c o f).addrLatch1 = s.addrLatch1 := rfl
@[simp] theorem modOp_dacEnable (c : ChIx) (o : OpIx) (f : Operator → Operator) : (s.modOp c o f).dacEnable = s.dacEnable := rfl
@[simp] theorem modOp_dacSample (c : ChIx) (o : OpIx) (f : Operator → Operator) : (s.modOp c o f).dacSample = s.dacSample := rfl
@[simp] theorem modOp_lfo (c : ChIx) (o : OpIx) (f : Operator → Operator) : (s.modOp c o f).lfo = s.lfo := rfl
@[simp] theorem modOp_timerA (c : ChIx) (o : OpIx) (f : Operator → Operator) : (s.modOp c o f).timerA = s.timerA := rfl
@[simp] theorem modOp_timerB (c : ChIx) (o : OpIx) (f : Operator → Operator) : (s.modOp c o f).timerB = s.timerB := rfl
@[simp] theorem modOp_ch3Mode (c : ChIx) (o : OpIx) (f : Operator → Operator) : (s.modOp c o f).ch3Mode = s.ch3Mode := rfl
@[simp] theorem modOp_spFnum (c : ChIx) (o : OpIx) (f : Operator → Operator) : (s.modOp c o f).spFnum = s.spFnum := rfl
@[simp] theorem modOp_spBlock (c : ChIx) (o : OpIx) (f : Operator → Operator) : (s.modOp c o f).spBlock = s.spBlock := rfl
@[simp] theorem modOp_fnumHiLatch (c : ChIx) (o : OpIx) (f : Operator → Operator) : (s.modOp c o f).fnumHiLatch = s.fnumHiLatch := rfl
@[simp] theorem modOp_ch3HiLatch (c : ChIx) (o : OpIx) (f : Operator → Operator) : (s.modOp c o f).ch3HiLatch = s.ch3HiLatch := rfl
@[simp] theorem modOp_csmPending (c : ChIx) (o : OpIx) (f : Operator → Operator) : (s.modOp c o f).csmPending = s.csmPending := rfl
@[simp] theorem modOp_egCounter (c : ChIx) (o : OpIx) (f : Operator → Operator) : (s.modOp c o f).egCounter = s.egCounter := rfl
@[simp] theorem modOp_egSub (c : ChIx) (o : OpIx) (f : Operator → Operator) : (s.modOp c o f).egSub = s.egSub := rfl
@[simp] theorem modOp_busyUntil (c : ChIx) (o : OpIx) (f : Operator → Operator) : (s.modOp c o f).busyUntil = s.busyUntil := rfl
@[simp] theorem modOp_statusCache (c : ChIx) (o : OpIx) (f : Operator → Operator) : (s.modOp c o f).statusCache = s.statusCache := rfl
@[simp] theorem modOp_statusTime (c : ChIx) (o : OpIx) (f : Operator → Operator) : (s.modOp c o f).statusTime = s.statusTime := rfl
@[simp] theorem modOp_sampleCount (c : ChIx) (o : OpIx) (f : Operator → Operator) : (s.modOp c o f).sampleCount = s.sampleCount := rfl

/-! ### `mapChanOps` -/

@[simp] theorem mapChanOps_ch (c : ChIx) (f : OpIx → Operator → Operator) : (s.mapChanOps c f).ch = s.ch := rfl
@[simp] theorem mapChanOps_addrLatch0 (c : ChIx) (f : OpIx → Operator → Operator) : (s.mapChanOps c f).addrLatch0 = s.addrLatch0 := rfl
@[simp] theorem mapChanOps_addrLatch1 (c : ChIx) (f : OpIx → Operator → Operator) : (s.mapChanOps c f).addrLatch1 = s.addrLatch1 := rfl
@[simp] theorem mapChanOps_dacEnable (c : ChIx) (f : OpIx → Operator → Operator) : (s.mapChanOps c f).dacEnable = s.dacEnable := rfl
@[simp] theorem mapChanOps_dacSample (c : ChIx) (f : OpIx → Operator → Operator) : (s.mapChanOps c f).dacSample = s.dacSample := rfl
@[simp] theorem mapChanOps_lfo (c : ChIx) (f : OpIx → Operator → Operator) : (s.mapChanOps c f).lfo = s.lfo := rfl
@[simp] theorem mapChanOps_timerA (c : ChIx) (f : OpIx → Operator → Operator) : (s.mapChanOps c f).timerA = s.timerA := rfl
@[simp] theorem mapChanOps_timerB (c : ChIx) (f : OpIx → Operator → Operator) : (s.mapChanOps c f).timerB = s.timerB := rfl
@[simp] theorem mapChanOps_ch3Mode (c : ChIx) (f : OpIx → Operator → Operator) : (s.mapChanOps c f).ch3Mode = s.ch3Mode := rfl
@[simp] theorem mapChanOps_spFnum (c : ChIx) (f : OpIx → Operator → Operator) : (s.mapChanOps c f).spFnum = s.spFnum := rfl
@[simp] theorem mapChanOps_spBlock (c : ChIx) (f : OpIx → Operator → Operator) : (s.mapChanOps c f).spBlock = s.spBlock := rfl
@[simp] theorem mapChanOps_fnumHiLatch (c : ChIx) (f : OpIx → Operator → Operator) : (s.mapChanOps c f).fnumHiLatch = s.fnumHiLatch := rfl
@[simp] theorem mapChanOps_ch3HiLatch (c : ChIx) (f : OpIx → Operator → Operator) : (s.mapChanOps c f).ch3HiLatch = s.ch3HiLatch := rfl
@[simp] theorem mapChanOps_csmPending (c : ChIx) (f : OpIx → Operator → Operator) : (s.mapChanOps c f).csmPending = s.csmPending := rfl
@[simp] theorem mapChanOps_egCounter (c : ChIx) (f : OpIx → Operator → Operator) : (s.mapChanOps c f).egCounter = s.egCounter := rfl
@[simp] theorem mapChanOps_egSub (c : ChIx) (f : OpIx → Operator → Operator) : (s.mapChanOps c f).egSub = s.egSub := rfl
@[simp] theorem mapChanOps_busyUntil (c : ChIx) (f : OpIx → Operator → Operator) : (s.mapChanOps c f).busyUntil = s.busyUntil := rfl
@[simp] theorem mapChanOps_statusCache (c : ChIx) (f : OpIx → Operator → Operator) : (s.mapChanOps c f).statusCache = s.statusCache := rfl
@[simp] theorem mapChanOps_statusTime (c : ChIx) (f : OpIx → Operator → Operator) : (s.mapChanOps c f).statusTime = s.statusTime := rfl
@[simp] theorem mapChanOps_sampleCount (c : ChIx) (f : OpIx → Operator → Operator) : (s.mapChanOps c f).sampleCount = s.sampleCount := rfl

/-! ### `mapOps` -/

@[simp] theorem mapOps_ch (f : ChIx → OpIx → Operator → Operator) : (s.mapOps f).ch = s.ch := rfl
@[simp] theorem mapOps_addrLatch0 (f : ChIx → OpIx → Operator → Operator) : (s.mapOps f).addrLatch0 = s.addrLatch0 := rfl
@[simp] theorem mapOps_addrLatch1 (f : ChIx → OpIx → Operator → Operator) : (s.mapOps f).addrLatch1 = s.addrLatch1 := rfl
@[simp] theorem mapOps_dacEnable (f : ChIx → OpIx → Operator → Operator) : (s.mapOps f).dacEnable = s.dacEnable := rfl
@[simp] theorem mapOps_dacSample (f : ChIx → OpIx → Operator → Operator) : (s.mapOps f).dacSample = s.dacSample := rfl
@[simp] theorem mapOps_lfo (f : ChIx → OpIx → Operator → Operator) : (s.mapOps f).lfo = s.lfo := rfl
@[simp] theorem mapOps_timerA (f : ChIx → OpIx → Operator → Operator) : (s.mapOps f).timerA = s.timerA := rfl
@[simp] theorem mapOps_timerB (f : ChIx → OpIx → Operator → Operator) : (s.mapOps f).timerB = s.timerB := rfl
@[simp] theorem mapOps_ch3Mode (f : ChIx → OpIx → Operator → Operator) : (s.mapOps f).ch3Mode = s.ch3Mode := rfl
@[simp] theorem mapOps_spFnum (f : ChIx → OpIx → Operator → Operator) : (s.mapOps f).spFnum = s.spFnum := rfl
@[simp] theorem mapOps_spBlock (f : ChIx → OpIx → Operator → Operator) : (s.mapOps f).spBlock = s.spBlock := rfl
@[simp] theorem mapOps_fnumHiLatch (f : ChIx → OpIx → Operator → Operator) : (s.mapOps f).fnumHiLatch = s.fnumHiLatch := rfl
@[simp] theorem mapOps_ch3HiLatch (f : ChIx → OpIx → Operator → Operator) : (s.mapOps f).ch3HiLatch = s.ch3HiLatch := rfl
@[simp] theorem mapOps_csmPending (f : ChIx → OpIx → Operator → Operator) : (s.mapOps f).csmPending = s.csmPending := rfl
@[simp] theorem mapOps_egCounter (f : ChIx → OpIx → Operator → Operator) : (s.mapOps f).egCounter = s.egCounter := rfl
@[simp] theorem mapOps_egSub (f : ChIx → OpIx → Operator → Operator) : (s.mapOps f).egSub = s.egSub := rfl
@[simp] theorem mapOps_busyUntil (f : ChIx → OpIx → Operator → Operator) : (s.mapOps f).busyUntil = s.busyUntil := rfl
@[simp] theorem mapOps_statusCache (f : ChIx → OpIx → Operator → Operator) : (s.mapOps f).statusCache = s.statusCache := rfl
@[simp] theorem mapOps_statusTime (f : ChIx → OpIx → Operator → Operator) : (s.mapOps f).statusTime = s.statusTime := rfl
@[simp] theorem mapOps_sampleCount (f : ChIx → OpIx → Operator → Operator) : (s.mapOps f).sampleCount = s.sampleCount := rfl

/-! ### `setChan` -/

@[simp] theorem setChan_ops (c : ChIx) (x : Channel) : (s.setChan c x).ops = s.ops := rfl
@[simp] theorem setChan_addrLatch0 (c : ChIx) (x : Channel) : (s.setChan c x).addrLatch0 = s.addrLatch0 := rfl
@[simp] theorem setChan_addrLatch1 (c : ChIx) (x : Channel) : (s.setChan c x).addrLatch1 = s.addrLatch1 := rfl
@[simp] theorem setChan_dacEnable (c : ChIx) (x : Channel) : (s.setChan c x).dacEnable = s.dacEnable := rfl
@[simp] theorem setChan_dacSample (c : ChIx) (x : Channel) : (s.setChan c x).dacSample = s.dacSample := rfl
@[simp] theorem setChan_lfo (c : ChIx) (x : Channel) : (s.setChan c x).lfo = s.lfo := rfl
@[simp] theorem setChan_timerA (c : ChIx) (x : Channel) : (s.setChan c x).timerA = s.timerA := rfl
@[simp] theorem setChan_timerB (c : ChIx) (x : Channel) : (s.setChan c x).timerB = s.timerB := rfl
@[simp] theorem setChan_ch3Mode (c : ChIx) (x : Channel) : (s.setChan c x).ch3Mode = s.ch3Mode := rfl
@[simp] theorem setChan_spFnum (c : ChIx) (x : Channel) : (s.setChan c x).spFnum = s.spFnum := rfl
@[simp] theorem setChan_spBlock (c : ChIx) (x : Channel) : (s.setChan c x).spBlock = s.spBlock := rfl
@[simp] theorem setChan_fnumHiLatch (c : ChIx) (x : Channel) : (s.setChan c x).fnumHiLatch = s.fnumHiLatch := rfl
@[simp] theorem setChan_ch3HiLatch (c : ChIx) (x : Channel) : (s.setChan c x).ch3HiLatch = s.ch3HiLatch := rfl
@[simp] theorem setChan_csmPending (c : ChIx) (x : Channel) : (s.setChan c x).csmPending = s.csmPending := rfl
@[simp] theorem setChan_egCounter (c : ChIx) (x : Channel) : (s.setChan c x).egCounter = s.egCounter := rfl
@[simp] theorem setChan_egSub (c : ChIx) (x : Channel) : (s.setChan c x).egSub = s.egSub := rfl
@[simp] theorem setChan_busyUntil (c : ChIx) (x : Channel) : (s.setChan c x).busyUntil = s.busyUntil := rfl
@[simp] theorem setChan_statusCache (c : ChIx) (x : Channel) : (s.setChan c x).statusCache = s.statusCache := rfl
@[simp] theorem setChan_statusTime (c : ChIx) (x : Channel) : (s.setChan c x).statusTime = s.statusTime := rfl
@[simp] theorem setChan_sampleCount (c : ChIx) (x : Channel) : (s.setChan c x).sampleCount = s.sampleCount := rfl

/-! ### `modChan` -/

@[simp] theorem modChan_ops (c : ChIx) (f : Channel → Channel) : (s.modChan c f).ops = s.ops := rfl
@[simp] theorem modChan_addrLatch0 (c : ChIx) (f : Channel → Channel) : (s.modChan c f).addrLatch0 = s.addrLatch0 := rfl
@[simp] theorem modChan_addrLatch1 (c : ChIx) (f : Channel → Channel) : (s.modChan c f).addrLatch1 = s.addrLatch1 := rfl
@[simp] theorem modChan_dacEnable (c : ChIx) (f : Channel → Channel) : (s.modChan c f).dacEnable = s.dacEnable := rfl
@[simp] theorem modChan_dacSample (c : ChIx) (f : Channel → Channel) : (s.modChan c f).dacSample = s.dacSample := rfl
@[simp] theorem modChan_lfo (c : ChIx) (f : Channel → Channel) : (s.modChan c f).lfo = s.lfo := rfl
@[simp] theorem modChan_timerA (c : ChIx) (f : Channel → Channel) : (s.modChan c f).timerA = s.timerA := rfl
@[simp] theorem modChan_timerB (c : ChIx) (f : Channel → Channel) : (s.modChan c f).timerB = s.timerB := rfl
@[simp] theorem modChan_ch3Mode (c : ChIx) (f : Channel → Channel) : (s.modChan c f).ch3Mode = s.ch3Mode := rfl
@[simp] theorem modChan_spFnum (c : ChIx) (f : Channel → Channel) : (s.modChan c f).spFnum = s.spFnum := rfl
@[simp] theorem modChan_spBlock (c : ChIx) (f : Channel → Channel) : (s.modChan c f).spBlock = s.spBlock := rfl
@[simp] theorem modChan_fnumHiLatch (c : ChIx) (f : Channel → Channel) : (s.modChan c f).fnumHiLatch = s.fnumHiLatch := rfl
@[simp] theorem modChan_ch3HiLatch (c : ChIx) (f : Channel → Channel) : (s.modChan c f).ch3HiLatch = s.ch3HiLatch := rfl
@[simp] theorem modChan_csmPending (c : ChIx) (f : Channel → Channel) : (s.modChan c f).csmPending = s.csmPending := rfl
@[simp] theorem modChan_egCounter (c : ChIx) (f : Channel → Channel) : (s.modChan c f).egCounter = s.egCounter := rfl
@[simp] theorem modChan_egSub (c : ChIx) (f : Channel → Channel) : (s.modChan c f).egSub = s.egSub := rfl
@[simp] theorem modChan_busyUntil (c : ChIx) (f : Channel → Channel) : (s.modChan c f).busyUntil = s.busyUntil := rfl
@[simp] theorem modChan_statusCache (c : ChIx) (f : Channel → Channel) : (s.modChan c f).statusCache = s.statusCache := rfl
@[simp] theorem modChan_statusTime (c : ChIx) (f : Channel → Channel) : (s.modChan c f).statusTime = s.statusTime := rfl
@[simp] theorem modChan_sampleCount (c : ChIx) (f : Channel → Channel) : (s.modChan c f).sampleCount = s.sampleCount := rfl

/-! ### `armBusy` -/

@[simp] theorem armBusy_ops (n : Nat) : (s.armBusy n).ops = s.ops := rfl
@[simp] theorem armBusy_ch (n : Nat) : (s.armBusy n).ch = s.ch := rfl
@[simp] theorem armBusy_addrLatch0 (n : Nat) : (s.armBusy n).addrLatch0 = s.addrLatch0 := rfl
@[simp] theorem armBusy_addrLatch1 (n : Nat) : (s.armBusy n).addrLatch1 = s.addrLatch1 := rfl
@[simp] theorem armBusy_dacEnable (n : Nat) : (s.armBusy n).dacEnable = s.dacEnable := rfl
@[simp] theorem armBusy_dacSample (n : Nat) : (s.armBusy n).dacSample = s.dacSample := rfl
@[simp] theorem armBusy_lfo (n : Nat) : (s.armBusy n).lfo = s.lfo := rfl
@[simp] theorem armBusy_timerA (n : Nat) : (s.armBusy n).timerA = s.timerA := rfl
@[simp] theorem armBusy_timerB (n : Nat) : (s.armBusy n).timerB = s.timerB := rfl
@[simp] theorem armBusy_ch3Mode (n : Nat) : (s.armBusy n).ch3Mode = s.ch3Mode := rfl
@[simp] theorem armBusy_spFnum (n : Nat) : (s.armBusy n).spFnum = s.spFnum := rfl
@[simp] theorem armBusy_spBlock (n : Nat) : (s.armBusy n).spBlock = s.spBlock := rfl
@[simp] theorem armBusy_fnumHiLatch (n : Nat) : (s.armBusy n).fnumHiLatch = s.fnumHiLatch := rfl
@[simp] theorem armBusy_ch3HiLatch (n : Nat) : (s.armBusy n).ch3HiLatch = s.ch3HiLatch := rfl
@[simp] theorem armBusy_csmPending (n : Nat) : (s.armBusy n).csmPending = s.csmPending := rfl
@[simp] theorem armBusy_egCounter (n : Nat) : (s.armBusy n).egCounter = s.egCounter := rfl
@[simp] theorem armBusy_egSub (n : Nat) : (s.armBusy n).egSub = s.egSub := rfl
@[simp] theorem armBusy_statusCache (n : Nat) : (s.armBusy n).statusCache = s.statusCache := rfl
@[simp] theorem armBusy_statusTime (n : Nat) : (s.armBusy n).statusTime = s.statusTime := rfl
@[simp] theorem armBusy_sampleCount (n : Nat) : (s.armBusy n).sampleCount = s.sampleCount := rfl

/-! ### `cacheStatus` -/

@[simp] theorem cacheStatus_ops : (s.cacheStatus).ops = s.ops := rfl
@[simp] theorem cacheStatus_ch : (s.cacheStatus).ch = s.ch := rfl
@[simp] theorem cacheStatus_addrLatch0 : (s.cacheStatus).addrLatch0 = s.addrLatch0 := rfl
@[simp] theorem cacheStatus_addrLatch1 : (s.cacheStatus).addrLatch1 = s.addrLatch1 := rfl
@[simp] theorem cacheStatus_dacEnable : (s.cacheStatus).dacEnable = s.dacEnable := rfl
@[simp] theorem cacheStatus_dacSample : (s.cacheStatus).dacSample = s.dacSample := rfl
@[simp] theorem cacheStatus_lfo : (s.cacheStatus).lfo = s.lfo := rfl
@[simp] theorem cacheStatus_timerA : (s.cacheStatus).timerA = s.timerA := rfl
@[simp] theorem cacheStatus_timerB : (s.cacheStatus).timerB = s.timerB := rfl
@[simp] theorem cacheStatus_ch3Mode : (s.cacheStatus).ch3Mode = s.ch3Mode := rfl
@[simp] theorem cacheStatus_spFnum : (s.cacheStatus).spFnum = s.spFnum := rfl
@[simp] theorem cacheStatus_spBlock : (s.cacheStatus).spBlock = s.spBlock := rfl
@[simp] theorem cacheStatus_fnumHiLatch : (s.cacheStatus).fnumHiLatch = s.fnumHiLatch := rfl
@[simp] theorem cacheStatus_ch3HiLatch : (s.cacheStatus).ch3HiLatch = s.ch3HiLatch := rfl
@[simp] theorem cacheStatus_csmPending : (s.cacheStatus).csmPending = s.csmPending := rfl
@[simp] theorem cacheStatus_egCounter : (s.cacheStatus).egCounter = s.egCounter := rfl
@[simp] theorem cacheStatus_egSub : (s.cacheStatus).egSub = s.egSub := rfl
@[simp] theorem cacheStatus_busyUntil : (s.cacheStatus).busyUntil = s.busyUntil := rfl
@[simp] theorem cacheStatus_sampleCount : (s.cacheStatus).sampleCount = s.sampleCount := rfl

/-! ### `csmKeyOn` -/

@[simp] theorem csmKeyOn_ch : (s.csmKeyOn).ch = s.ch := rfl
@[simp] theorem csmKeyOn_addrLatch0 : (s.csmKeyOn).addrLatch0 = s.addrLatch0 := rfl
@[simp] theorem csmKeyOn_addrLatch1 : (s.csmKeyOn).addrLatch1 = s.addrLatch1 := rfl
@[simp] theorem csmKeyOn_dacEnable : (s.csmKeyOn).dacEnable = s.dacEnable := rfl
@[simp] theorem csmKeyOn_dacSample : (s.csmKeyOn).dacSample = s.dacSample := rfl
@[simp] theorem csmKeyOn_lfo : (s.csmKeyOn).lfo = s.lfo := rfl
@[simp] theorem csmKeyOn_timerA : (s.csmKeyOn).timerA = s.timerA := rfl
@[simp] theorem csmKeyOn_timerB : (s.csmKeyOn).timerB = s.timerB := rfl
@[simp] theorem csmKeyOn_ch3Mode : (s.csmKeyOn).ch3Mode = s.ch3Mode := rfl
@[simp] theorem csmKeyOn_spFnum : (s.csmKeyOn).spFnum = s.spFnum := rfl
@[simp] theorem csmKeyOn_spBlock : (s.csmKeyOn).spBlock = s.spBlock := rfl
@[simp] theorem csmKeyOn_fnumHiLatch : (s.csmKeyOn).fnumHiLatch = s.fnumHiLatch := rfl
@[simp] theorem csmKeyOn_ch3HiLatch : (s.csmKeyOn).ch3HiLatch = s.ch3HiLatch := rfl
@[simp] theorem csmKeyOn_egCounter : (s.csmKeyOn).egCounter = s.egCounter := rfl
@[simp] theorem csmKeyOn_egSub : (s.csmKeyOn).egSub = s.egSub := rfl
@[simp] theorem csmKeyOn_busyUntil : (s.csmKeyOn).busyUntil = s.busyUntil := rfl
@[simp] theorem csmKeyOn_statusCache : (s.csmKeyOn).statusCache = s.statusCache := rfl
@[simp] theorem csmKeyOn_statusTime : (s.csmKeyOn).statusTime = s.statusTime := rfl
@[simp] theorem csmKeyOn_sampleCount : (s.csmKeyOn).sampleCount = s.sampleCount := rfl

/-! ### `lfoStep` -/

@[simp] theorem lfoStep_ops : (s.lfoStep).ops = s.ops := rfl
@[simp] theorem lfoStep_ch : (s.lfoStep).ch = s.ch := rfl
@[simp] theorem lfoStep_addrLatch0 : (s.lfoStep).addrLatch0 = s.addrLatch0 := rfl
@[simp] theorem lfoStep_addrLatch1 : (s.lfoStep).addrLatch1 = s.addrLatch1 := rfl
@[simp] theorem lfoStep_dacEnable : (s.lfoStep).dacEnable = s.dacEnable := rfl
@[simp] theorem lfoStep_dacSample : (s.lfoStep).dacSample = s.dacSample := rfl
@[simp] theorem lfoStep_timerA : (s.lfoStep).timerA = s.timerA := rfl
@[simp] theorem lfoStep_timerB : (s.lfoStep).timerB = s.timerB := rfl
@[simp] theorem lfoStep_ch3Mode : (s.lfoStep).ch3Mode = s.ch3Mode := rfl
@[simp] theorem lfoStep_spFnum : (s.lfoStep).spFnum = s.spFnum := rfl
@[simp] theorem lfoStep_spBlock : (s.lfoStep).spBlock = s.spBlock := rfl
@[simp] theorem lfoStep_fnumHiLatch : (s.lfoStep).fnumHiLatch = s.fnumHiLatch := rfl
@[simp] theorem lfoStep_ch3HiLatch : (s.lfoStep).ch3HiLatch = s.ch3HiLatch := rfl
@[simp] theorem lfoStep_csmPending : (s.lfoStep).csmPending = s.csmPending := rfl
@[simp] theorem lfoStep_egCounter : (s.lfoStep).egCounter = s.egCounter := rfl
@[simp] theorem lfoStep_egSub : (s.lfoStep).egSub = s.egSub := rfl
@[simp] theorem lfoStep_busyUntil : (s.lfoStep).busyUntil = s.busyUntil := rfl
@[simp] theorem lfoStep_statusCache : (s.lfoStep).statusCache = s.statusCache := rfl
@[simp] theorem lfoStep_statusTime : (s.lfoStep).statusTime = s.statusTime := rfl
@[simp] theorem lfoStep_sampleCount : (s.lfoStep).sampleCount = s.sampleCount := rfl

/-! ### `timerBStep` -/

@[simp] theorem timerBStep_ops : (s.timerBStep).ops = s.ops := rfl
@[simp] theorem timerBStep_ch : (s.timerBStep).ch = s.ch := rfl
@[simp] theorem timerBStep_addrLatch0 : (s.timerBStep).addrLatch0 = s.addrLatch0 := rfl
@[simp] theorem timerBStep_addrLatch1 : (s.timerBStep).addrLatch1 = s.addrLatch1 := rfl
@[simp] theorem timerBStep_dacEnable : (s.timerBStep).dacEnable = s.dacEnable := rfl
@[simp] theorem timerBStep_dacSample : (s.timerBStep).dacSample = s.dacSample := rfl
@[simp] theorem timerBStep_lfo : (s.timerBStep).lfo = s.lfo := rfl
@[simp] theorem timerBStep_timerA : (s.timerBStep).timerA = s.timerA := rfl
@[simp] theorem timerBStep_ch3Mode : (s.timerBStep).ch3Mode = s.ch3Mode := rfl
@[simp] theorem timerBStep_spFnum : (s.timerBStep).spFnum = s.spFnum := rfl
@[simp] theorem timerBStep_spBlock : (s.timerBStep).spBlock = s.spBlock := rfl
@[simp] theorem timerBStep_fnumHiLatch : (s.timerBStep).fnumHiLatch = s.fnumHiLatch := rfl
@[simp] theorem timerBStep_ch3HiLatch : (s.timerBStep).ch3HiLatch = s.ch3HiLatch := rfl
@[simp] theorem timerBStep_csmPending : (s.timerBStep).csmPending = s.csmPending := rfl
@[simp] theorem timerBStep_egCounter : (s.timerBStep).egCounter = s.egCounter := rfl
@[simp] theorem timerBStep_egSub : (s.timerBStep).egSub = s.egSub := rfl
@[simp] theorem timerBStep_busyUntil : (s.timerBStep).busyUntil = s.busyUntil := rfl
@[simp] theorem timerBStep_statusCache : (s.timerBStep).statusCache = s.statusCache := rfl
@[simp] theorem timerBStep_statusTime : (s.timerBStep).statusTime = s.statusTime := rfl
@[simp] theorem timerBStep_sampleCount : (s.timerBStep).sampleCount = s.sampleCount := rfl

/-! ### `envelopeTick` -/

@[simp] theorem envelopeTick_ch : (s.envelopeTick).ch = s.ch := rfl
@[simp] theorem envelopeTick_addrLatch0 : (s.envelopeTick).addrLatch0 = s.addrLatch0 := rfl
@[simp] theorem envelopeTick_addrLatch1 : (s.envelopeTick).addrLatch1 = s.addrLatch1 := rfl
@[simp] theorem envelopeTick_dacEnable : (s.envelopeTick).dacEnable = s.dacEnable := rfl
@[simp] theorem envelopeTick_dacSample : (s.envelopeTick).dacSample = s.dacSample := rfl
@[simp] theorem envelopeTick_lfo : (s.envelopeTick).lfo = s.lfo := rfl
@[simp] theorem envelopeTick_timerA : (s.envelopeTick).timerA = s.timerA := rfl
@[simp] theorem envelopeTick_timerB : (s.envelopeTick).timerB = s.timerB := rfl
@[simp] theorem envelopeTick_ch3Mode : (s.envelopeTick).ch3Mode = s.ch3Mode := rfl
@[simp] theorem envelopeTick_spFnum : (s.envelopeTick).spFnum = s.spFnum := rfl
@[simp] theorem envelopeTick_spBlock : (s.envelopeTick).spBlock = s.spBlock := rfl
@[simp] theorem envelopeTick_fnumHiLatch : (s.envelopeTick).fnumHiLatch = s.fnumHiLatch := rfl
@[simp] theorem envelopeTick_ch3HiLatch : (s.envelopeTick).ch3HiLatch = s.ch3HiLatch := rfl
@[simp] theorem envelopeTick_csmPending : (s.envelopeTick).csmPending = s.csmPending := rfl
@[simp] theorem envelopeTick_egSub : (s.envelopeTick).egSub = s.egSub := rfl
@[simp] theorem envelopeTick_busyUntil : (s.envelopeTick).busyUntil = s.busyUntil := rfl
@[simp] theorem envelopeTick_statusCache : (s.envelopeTick).statusCache = s.statusCache := rfl
@[simp] theorem envelopeTick_statusTime : (s.envelopeTick).statusTime = s.statusTime := rfl
@[simp] theorem envelopeTick_sampleCount : (s.envelopeTick).sampleCount = s.sampleCount := rfl

/-! ### `recordChannels` -/

@[simp] theorem recordChannels_ch : (s.recordChannels).ch = s.ch := rfl
@[simp] theorem recordChannels_addrLatch0 : (s.recordChannels).addrLatch0 = s.addrLatch0 := rfl
@[simp] theorem recordChannels_addrLatch1 : (s.recordChannels).addrLatch1 = s.addrLatch1 := rfl
@[simp] theorem recordChannels_dacEnable : (s.recordChannels).dacEnable = s.dacEnable := rfl
@[simp] theorem recordChannels_dacSample : (s.recordChannels).dacSample = s.dacSample := rfl
@[simp] theorem recordChannels_lfo : (s.recordChannels).lfo = s.lfo := rfl
@[simp] theorem recordChannels_timerA : (s.recordChannels).timerA = s.timerA := rfl
@[simp] theorem recordChannels_timerB : (s.recordChannels).timerB = s.timerB := rfl
@[simp] theorem recordChannels_ch3Mode : (s.recordChannels).ch3Mode = s.ch3Mode := rfl
@[simp] theorem recordChannels_spFnum : (s.recordChannels).spFnum = s.spFnum := rfl
@[simp] theorem recordChannels_spBlock : (s.recordChannels).spBlock = s.spBlock := rfl
@[simp] theorem recordChannels_fnumHiLatch : (s.recordChannels).fnumHiLatch = s.fnumHiLatch := rfl
@[simp] theorem recordChannels_ch3HiLatch : (s.recordChannels).ch3HiLatch = s.ch3HiLatch := rfl
@[simp] theorem recordChannels_csmPending : (s.recordChannels).csmPending = s.csmPending := rfl
@[simp] theorem recordChannels_egCounter : (s.recordChannels).egCounter = s.egCounter := rfl
@[simp] theorem recordChannels_egSub : (s.recordChannels).egSub = s.egSub := rfl
@[simp] theorem recordChannels_busyUntil : (s.recordChannels).busyUntil = s.busyUntil := rfl
@[simp] theorem recordChannels_statusCache : (s.recordChannels).statusCache = s.statusCache := rfl
@[simp] theorem recordChannels_statusTime : (s.recordChannels).statusTime = s.statusTime := rfl
@[simp] theorem recordChannels_sampleCount : (s.recordChannels).sampleCount = s.sampleCount := rfl

end Sys2Proof.Machine
end

