-- ==== Sys2Proof/Laws/Ops.lean ====
section
/-! SUPPORT. Read after write for the register files, and what each shared operation of the block does, said once. -/

namespace Sys2Proof.Machine

/-! ## Families -/

@[simp] theorem PerOp.get_set {α : Type} (x : PerOp α) (o o' : OpIx) (v : α) :
    (x.set o v).get o' = if o' = o then v else x.get o' := by cases o <;> cases o' <;> rfl

@[simp] theorem PerOp.get_mapIdx {α β : Type} (f : OpIx → α → β) (x : PerOp α) (o : OpIx) :
    (x.mapIdx f).get o = f o (x.get o) := by cases o <;> rfl

@[simp] theorem PerSp.get_set {α : Type} (x : PerSp α) (o o' : SpIx) (v : α) :
    (x.set o v).get o' = if o' = o then v else x.get o' := by cases o <;> cases o' <;> rfl

@[simp] theorem PerCh.get_set {α : Type} (x : PerCh α) (c c' : ChIx) (v : α) :
    (x.set c v).get c' = if c' = c then v else x.get c' := by cases c <;> cases c' <;> rfl

@[simp] theorem PerCh.get_mapIdx {α β : Type} (f : ChIx → α → β) (x : PerCh α) (c : ChIx) :
    (x.mapIdx f).get c = f c (x.get c) := by cases c <;> rfl

/-- Two families of operators with the same value at every operator are the same. -/
theorem PerOp.ext_get {α : Type} {x y : PerOp α} (h : ∀ o, x.get o = y.get o) : x = y := by
  obtain ⟨_, _, _, _⟩ := x
  obtain ⟨_, _, _, _⟩ := y
  have h1 := h .op1
  have h2 := h .op2
  have h3 := h .op3
  have h4 := h .op4
  simp_all [PerOp.get]

/-- Two families of channels with the same value at every channel are the same. -/
theorem PerCh.ext_get {α : Type} {x y : PerCh α} (h : ∀ c, x.get c = y.get c) : x = y := by
  obtain ⟨_, _, _, _, _, _⟩ := x
  obtain ⟨_, _, _, _, _, _⟩ := y
  have h0 := h .ch0
  have h1 := h .ch1
  have h2 := h .ch2
  have h3 := h .ch3
  have h4 := h .ch4
  have h5 := h .ch5
  simp_all [PerCh.get]

/-! ## Operators and channels of the block -/

variable (s : Chip)

@[simp] theorem setOp_op (c c' : ChIx) (o o' : OpIx) (x : Operator) :
    (s.setOp c o x).op c' o' = if c' = c ∧ o' = o then x else s.op c' o' := by
  by_cases h : c' = c <;> by_cases h' : o' = o <;> simp [Chip.setOp, Chip.op, h, h']

@[simp] theorem modOp_op (c c' : ChIx) (o o' : OpIx) (f : Operator → Operator) :
    (s.modOp c o f).op c' o' = if c' = c ∧ o' = o then f (s.op c o) else s.op c' o' := by
  simp [Chip.modOp]

@[simp] theorem mapChanOps_op (c c' : ChIx) (o : OpIx) (f : OpIx → Operator → Operator) :
    (s.mapChanOps c f).op c' o = if c' = c then f o (s.op c o) else s.op c' o := by
  by_cases h : c' = c <;> simp [Chip.mapChanOps, Chip.op, h]

@[simp] theorem mapOps_op (c : ChIx) (o : OpIx) (f : ChIx → OpIx → Operator → Operator) :
    (s.mapOps f).op c o = f c o (s.op c o) := by
  simp [Chip.mapOps, Chip.op]

@[simp] theorem setChan_chan (c c' : ChIx) (x : Channel) :
    (s.setChan c x).chan c' = if c' = c then x else s.chan c' := by
  simp [Chip.setChan, Chip.chan]

@[simp] theorem modChan_chan (c c' : ChIx) (f : Channel → Channel) :
    (s.modChan c f).chan c' = if c' = c then f (s.chan c) else s.chan c' := by
  simp [Chip.modChan]

/-- The operators of a block are read from its operator file alone. -/
theorem op_of_ops {s t : Chip} (h : t.ops = s.ops) (c : ChIx) (o : OpIx) : t.op c o = s.op c o := by
  simp [Chip.op, h]

/-- The channels of a block are read from its channel file alone. -/
theorem chan_of_ch {s t : Chip} (h : t.ch = s.ch) (c : ChIx) : t.chan c = s.chan c := by
  simp [Chip.chan, h]

/-- Two blocks that differ in their operators only and agree on each of those are the same. -/
theorem chip_ext_ops {s t : Chip} (h : t = { s with ops := t.ops }) (ho : ∀ c o, t.op c o = s.op c o) : t = s := by
  have : t.ops = s.ops := PerCh.ext_get fun c => PerOp.ext_get fun o => ho c o
  rw [h, this]

/-- The frequency source reads the channels, the mode and the override registers alone (40_phase_generator.md R120). -/
theorem fSrc_congr {s t : Chip} (hc : t.ch = s.ch) (hm : t.ch3Mode = s.ch3Mode) (hf : t.spFnum = s.spFnum)
    (hb : t.spBlock = s.spBlock) (c : ChIx) (o : OpIx) : t.fSrc c o = s.fSrc c o := by
  simp [Chip.fSrc, Chip.spFreq, Chip.chanFreq, Chip.chan, hc, hm, hf, hb]

/-! ## The arithmetic shift -/

/-- The arithmetic shift is floor division by a power of two (00_scope.md R13). -/
theorem asr_eq_div (x : Int) (n : Nat) : asr x n = x / (2 ^ n : Nat) := Int.shiftRight_eq_div_pow x n

/-! ## Timer step -/

/-- What a release does to each operator (45_timers_csm.md R258). -/
theorem csmRelease_op (c : ChIx) (o : OpIx) :
    s.csmRelease.op c o =
      if c = .ch2 ∧ s.csmPending = true ∧ (s.op c o).keyLatch = false then (s.op c o).keyOff else s.op c o := by
  by_cases hp : s.csmPending = true <;> by_cases hc : c = .ch2 <;>
    simp [Chip.csmRelease, Chip.mapChanOps, Chip.op, hp, hc]

/-- A release writes the operators and ends the pending state. -/
theorem csmRelease_eq : s.csmRelease = { s with ops := s.csmRelease.ops, csmPending := false } := by
  unfold Chip.csmRelease
  by_cases hp : s.csmPending = true
  · simp [hp, Chip.mapChanOps]
  · simp only [hp, Bool.false_eq_true, if_false]
    rw [Bool.not_eq_true] at hp
    rw [← hp]

/-- What a CSM key-on does to each operator (45_timers_csm.md R257). -/
theorem csmKeyOn_op (c : ChIx) (o : OpIx) :
    s.csmKeyOn.op c o = if c = .ch2 then (s.op c o).keyOn (s.keyCode c o) else s.op c o := by
  by_cases hc : c = .ch2 <;> simp [Chip.csmKeyOn, Chip.mapChanOps, Chip.op, hc]

/-- A timer step writes the operators, the pending state and the two timers, and nothing else (45_timers_csm.md R251). -/
theorem timerStep_eq : s.timerStep = { s with
    ops := s.timerStep.ops, csmPending := s.timerStep.csmPending, timerA := s.timerA.tick, timerB := s.timerB.tick } := by
  have h : ∀ k : Chip, k.timerAStep = { k with
      ops := k.timerAStep.ops, csmPending := k.timerAStep.csmPending, timerA := k.timerA.tick } := by
    intro k
    unfold Chip.timerAStep
    split <;> simp [Chip.csmKeyOn, Chip.mapChanOps]
  unfold Chip.timerStep Chip.timerBStep
  rw [h, csmRelease_eq]

end Sys2Proof.Machine
end

