-- ==== Sys2Proof/Laws/Output.lean ====
section
/-! SUPPORT. Bounds of the output tables and of the magnitude they give. -/

namespace Sys2Proof.Machine

/-- No entry of the log-to-linear table exceeds its first (42_operator_output.md R182). -/
theorem pow2_le (f : Nat) (h : f < 256) : pow2 f ≤ 2042 := by
  have rows : ∀ r c : Fin 16, ((pow2Lo ++ pow2Hi).getD r []).getD c 0 ≤ 2042 := by decide
  exact rows ⟨f / 16, by omega⟩ ⟨f % 16, by omega⟩

/-- The magnitude of an operator's output is at most 8168 (42_operator_output.md R183). -/
theorem opMag_le (q : BitVec 8) (att : Nat) : opMag q att ≤ 8168 := by
  unfold opMag
  have h := pow2_le ((logSin q + att <<< 2) % 256) (Nat.mod_lt _ (by omega))
  simp only [Nat.shiftRight_eq_div_pow, Nat.shiftLeft_eq]
  exact Nat.le_trans (Nat.div_le_self _ _) (by simp only [Nat.shiftLeft_eq] at h; omega)

end Sys2Proof.Machine
end

