-- ==== Sys2Proof/Laws/PerInstr.lean ====
section
/-! SUPPORT. The per-instruction family `EncodedFormat`: the word an instruction encodes to, handed over as the number the opcode
table writes, is read back as that word, in its own format (30_encoding.md R80, R81; log 5). One lemma per constructor of
`Instr`. -/

namespace Sys2Proof.Laws.EncodedFormat

/-- The encoded word survives the opcode table's numbering. -/
def Statement (i : Instr) : Prop := OpWord.ofTable (encode i).nbits (encode i).toNat = some (encode i)

/-- A format P word is read back in format P. -/
theorem of_port {i : Instr} {w : BitVec 11} (h : encode i = .port w) : Statement i := by
  rw [Statement, h]
  exact OpWord.ofTable_port w

/-- A format R word is read back in format R. -/
theorem of_reg {i : Instr} {w : BitVec 17} (h : encode i = .reg w) : Statement i := by
  rw [Statement, h]
  exact OpWord.ofTable_reg w

theorem aw0 (v : Byte) : Statement (.aw0 v) := of_port rfl
theorem dw1 (v : Byte) : Statement (.dw1 v) := of_port rfl
theorem aw2 (v : Byte) : Statement (.aw2 v) := of_port rfl
theorem dw3 (v : Byte) : Statement (.dw3 v) := of_port rfl
theorem rd0 : Statement .rd0 := of_port rfl
theorem rd1 : Statement .rd1 := of_port rfl
theorem rd2 : Statement .rd2 := of_port rfl
theorem rd3 : Statement .rd3 := of_port rfl
theorem ignore (part : Part) (addr data : Byte) : Statement (.ignore part addr data) := of_reg rfl
theorem lfo (enable : Bool) (freq : BitVec 3) : Statement (.lfo enable freq) := of_reg rfl
theorem timerAHi (hi : BitVec 8) : Statement (.timerAHi hi) := of_reg rfl
theorem timerALo (lo : BitVec 2) : Statement (.timerALo lo) := of_reg rfl
theorem timerB (period : BitVec 8) : Statement (.timerB period) := of_reg rfl
theorem timerCtrl (mode : Ch3Mode) (resetB resetA enableB enableA loadB loadA : Bool) :
    Statement (.timerCtrl mode resetB resetA enableB enableA loadB loadA) := of_reg rfl
theorem keyOnOff (c : ChIx) (keys : BitVec 4) : Statement (.keyOnOff c keys) := of_reg rfl
theorem dacSample (sample : Byte) : Statement (.dacSample sample) := of_reg rfl
theorem dacEnable (enable : Bool) : Statement (.dacEnable enable) := of_reg rfl
theorem ignoreKeyChsel3 (rest : BitVec 6) : Statement (.ignoreKeyChsel3 rest) := of_reg rfl
theorem dtMul (c : ChIx) (o : OpIx) (dt : BitVec 3) (mul : BitVec 4) : Statement (.dtMul c o dt mul) := of_reg rfl
theorem ignoreDtMulCh3 (part : Part) (slot : BitVec 2) (data : Byte) : Statement (.ignoreDtMulCh3 part slot data) := of_reg rfl
theorem tl (c : ChIx) (o : OpIx) (level : BitVec 7) : Statement (.tl c o level) := of_reg rfl
theorem ignoreTlCh3 (part : Part) (slot : BitVec 2) (data : Byte) : Statement (.ignoreTlCh3 part slot data) := of_reg rfl
theorem rsAr (c : ChIx) (o : OpIx) (rs : BitVec 2) (ar : BitVec 5) : Statement (.rsAr c o rs ar) := of_reg rfl
theorem ignoreRsArCh3 (part : Part) (slot : BitVec 2) (data : Byte) : Statement (.ignoreRsArCh3 part slot data) := of_reg rfl
theorem amD1r (c : ChIx) (o : OpIx) (am : Bool) (d1r : BitVec 5) : Statement (.amD1r c o am d1r) := of_reg rfl
theorem ignoreAmD1rCh3 (part : Part) (slot : BitVec 2) (data : Byte) : Statement (.ignoreAmD1rCh3 part slot data) := of_reg rfl
theorem d2r (c : ChIx) (o : OpIx) (rate : BitVec 5) : Statement (.d2r c o rate) := of_reg rfl
theorem ignoreD2rCh3 (part : Part) (slot : BitVec 2) (data : Byte) : Statement (.ignoreD2rCh3 part slot data) := of_reg rfl
theorem d1lRr (c : ChIx) (o : OpIx) (d1l : BitVec 4) (rr : BitVec 4) : Statement (.d1lRr c o d1l rr) := of_reg rfl
theorem ignoreD1lRrCh3 (part : Part) (slot : BitVec 2) (data : Byte) : Statement (.ignoreD1lRrCh3 part slot data) := of_reg rfl
theorem ssgEg (c : ChIx) (o : OpIx) (ssg : BitVec 4) : Statement (.ssgEg c o ssg) := of_reg rfl
theorem ignoreSsgEgCh3 (part : Part) (slot : BitVec 2) (data : Byte) : Statement (.ignoreSsgEgCh3 part slot data) := of_reg rfl
theorem fnumLo (c : ChIx) (lo : Byte) : Statement (.fnumLo c lo) := of_reg rfl
theorem ignoreFnumLoCh3 (part : Part) (data : Byte) : Statement (.ignoreFnumLoCh3 part data) := of_reg rfl
theorem fnumHiBlock (c : ChIx) (block : BitVec 3) (hi : BitVec 3) : Statement (.fnumHiBlock c block hi) := of_reg rfl
theorem ignoreFnumHiBlockCh3 (part : Part) (data : Byte) : Statement (.ignoreFnumHiBlockCh3 part data) := of_reg rfl
theorem ch2OpFnumLo (o : SpIx) (lo : Byte) : Statement (.ch2OpFnumLo o lo) := of_reg rfl
theorem ignoreCh2OpFnumLoPart1 (sel : BitVec 2) (data : Byte) : Statement (.ignoreCh2OpFnumLoPart1 sel data) := of_reg rfl
theorem ignoreCh2OpFnumLoSel3 (data : Byte) : Statement (.ignoreCh2OpFnumLoSel3 data) := of_reg rfl
theorem ch2OpFnumHiBlock (o : SpIx) (block : BitVec 3) (hi : BitVec 3) : Statement (.ch2OpFnumHiBlock o block hi) := of_reg rfl
theorem ignoreCh2OpFnumHiBlockPart1 (sel : BitVec 2) (data : Byte) : Statement (.ignoreCh2OpFnumHiBlockPart1 sel data) := of_reg rfl
theorem ignoreCh2OpFnumHiBlockSel3 (data : Byte) : Statement (.ignoreCh2OpFnumHiBlockSel3 data) := of_reg rfl
theorem fbAlg (c : ChIx) (fb : BitVec 3) (alg : BitVec 3) : Statement (.fbAlg c fb alg) := of_reg rfl
theorem ignoreFbAlgCh3 (part : Part) (data : Byte) : Statement (.ignoreFbAlgCh3 part data) := of_reg rfl
theorem panAmsFms (c : ChIx) (panL panR : Bool) (ams : BitVec 2) (fms : BitVec 3) : Statement (.panAmsFms c panL panR ams fms) := of_reg rfl
theorem ignorePanAmsFmsCh3 (part : Part) (data : Byte) : Statement (.ignorePanAmsFmsCh3 part data) := of_reg rfl

end Sys2Proof.Laws.EncodedFormat
end

