-- ==== Sys2Proof/Laws/Ports.lean ====
section
/-! SUPPORT. The two routes a register write can take, the table's decoder (30_encoding.md R82) and the dispatch of
46_register_interface.md R274, lead to the same effect. -/

namespace Sys2Proof.Machine

/-- The global registers. -/
theorem exec_decodeGlobal (a d : Byte) (s : State) : exec (decodeGlobal a d) s = .next (s.onChip (globalWrite a d)) := by
  unfold decodeGlobal globalWrite State.onChip
  split <;> first
    | rfl
    | (cases keyChan (Field.chsel d) <;> rfl)
    | (rename_i h
       simp only [h]
       first
         | rfl
         | (cases keyChan (Field.chsel d) <;> rfl))

/-- The per-operator registers. -/
theorem exec_decodeOperator (p : Part) (a d : Byte) (s : State) (h3 : 0x30 ≤ a.toNat) (h9 : a.toNat ≤ 0x9F) :
    exec (decodeOperator p a d) s = .next (s.onChip (operatorWrite p a d)) := by
  have hg : (Field.group a).toNat = a.toNat / 16 := by
    rw [Field.group, slice_toNat]
    have := a.isLt
    omega
  unfold decodeOperator operatorWrite State.onChip
  have : a.toNat / 16 = 3 ∨ a.toNat / 16 = 4 ∨ a.toNat / 16 = 5 ∨ a.toNat / 16 = 6 ∨ a.toNat / 16 = 7 ∨ a.toNat / 16 = 8 ∨
      a.toNat / 16 = 9 := by omega
  rcases this with h | h | h | h | h | h | h <;> rw [hg, h] <;> cases chanOf p (Field.chan a) <;> rfl

/-- The per-channel registers. -/
theorem exec_decodeChannel (p : Part) (a d : Byte) (s : State) (hA : 0xA0 ≤ a.toNat) (hB : a.toNat ≤ 0xB7) :
    exec (decodeChannel p a d) s = .next (s.onChip (channelWrite p a d)) := by
  have hg : (Field.chanGroup a).toNat = a.toNat / 4 := by
    rw [Field.chanGroup, slice_toNat]
    have := a.isLt
    omega
  have hk : (Field.chan a).toNat < 4 := (Field.chan a).isLt
  unfold decodeChannel channelWrite overrideWrite State.onChip chanOf spOf
  have : a.toNat / 4 = 0x28 ∨ a.toNat / 4 = 0x29 ∨ a.toNat / 4 = 0x2A ∨ a.toNat / 4 = 0x2B ∨ a.toNat / 4 = 0x2C ∨
      a.toNat / 4 = 0x2D := by omega
  have : (Field.chan a).toNat = 0 ∨ (Field.chan a).toNat = 1 ∨ (Field.chan a).toNat = 2 ∨ (Field.chan a).toNat = 3 := by omega
  rcases ‹a.toNat / 4 = _ ∨ _› with h | h | h | h | h | h <;> rw [hg, h] <;>
    rcases this with h' | h' | h' | h' <;> simp only [h'] <;> cases p <;> rfl

/-- A register write word does what the dispatch of its part, address and data does: every word of format R answers a next state, and
nothing but the block changes. -/
theorem exec_decodeReg (p : Part) (a d : Byte) (s : State) :
    exec (decodeReg (regWord p a d)) s = .next (s.onChip (regWrite p a d)) := by
  rw [decodeReg_regWord]
  unfold decodeRegFields
  have := a.isLt
  by_cases h2 : a.toNat < 0x20
  · have : regWrite p a d = id := by
      funext k
      simp only [regWrite]
      rw [if_neg (by omega), if_neg (by omega), if_neg (by omega)]
      rfl
    rw [this]
    simp only [h2, if_true]
    rfl
  by_cases h3 : a.toNat < 0x30
  · simp only [h2, h3, if_true, if_false]
    cases p
    · rw [exec_decodeGlobal]
      unfold State.onChip regWrite
      simp only [show 0x20 ≤ a.toNat ∧ a.toNat ≤ 0x2F by omega, and_self, if_true]
    · unfold State.onChip regWrite
      simp only [show 0x20 ≤ a.toNat ∧ a.toNat ≤ 0x2F by omega, and_self, if_true]
      rfl
  by_cases h9 : a.toNat < 0xA0
  · simp only [h2, h3, h9, if_true, if_false]
    rw [exec_decodeOperator _ _ _ _ (by omega) (by omega)]
    unfold State.onChip regWrite
    simp only
    rw [if_neg (by omega), if_pos (by omega)]
  by_cases hB : a.toNat < 0xB8
  · simp only [h2, h3, h9, hB, if_true, if_false]
    rw [exec_decodeChannel _ _ _ _ (by omega) (by omega)]
    unfold State.onChip regWrite
    simp only
    rw [if_neg (by omega), if_neg (by omega)]
    by_cases h7 : a.toNat ≤ 0xB6
    · rw [if_pos (by omega)]
    · rw [if_neg (by omega)]
      have hk : (Field.chan a).toNat = 3 := by
        rw [Field.chan, slice_toNat]
        omega
      unfold channelWrite chanOf
      cases p <;> simp only [hk]
  · simp only [h2, h3, h9, hB, if_false]
    unfold State.onChip regWrite
    simp only
    rw [if_neg (by omega), if_neg (by omega), if_neg (by omega)]
    rfl

end Sys2Proof.Machine
end

