-- ==== Sys2Proof/Laws/Tick.lean ====
section
/-! SUPPORT. What one native tick can change, said once: every lemma about a tick starts from `nativeTick_eq`. -/

namespace Sys2Proof.Machine

variable (s : Chip)

/-- The envelope clock writes the operators, the envelope counter and the sub-clock, and nothing else. -/
theorem egClock_eq : s.egClock = { s with
    ops := s.egClock.ops
    egCounter := if s.egSub + 1 = 3 then egCounterNext s.egCounter else s.egCounter
    egSub := if s.egSub + 1 = 3 then 0 else s.egSub + 1 } := by
  unfold Chip.egClock
  by_cases h : s.egSub + 1 = 3
  · simp only [if_pos h]
    rfl
  · simp only [if_neg h]

/-- Before the channels a tick writes the operators, the CSM state, the timers, the LFO and the envelope clock, and nothing else. -/
theorem beforeChannels_eq : s.beforeChannels = { s with
    ops := s.beforeChannels.ops
    csmPending := s.timerStep.csmPending
    timerA := s.timerA.tick
    timerB := s.timerB.tick
    lfo := s.lfo.tick
    egCounter := if s.egSub + 1 = 3 then egCounterNext s.egCounter else s.egCounter
    egSub := if s.egSub + 1 = 3 then 0 else s.egSub + 1 } := by
  unfold Chip.beforeChannels
  rw [egClock_eq, Chip.lfoStep, timerStep_eq]

/-- A tick writes the operators, the CSM state, the timers, the LFO, the envelope clock and the sample count, and nothing else. -/
theorem nativeTick_eq : s.nativeTick.1 = { s with
    ops := s.nativeTick.1.ops
    csmPending := s.timerStep.csmPending
    timerA := s.timerA.tick
    timerB := s.timerB.tick
    lfo := s.lfo.tick
    egCounter := if s.egSub + 1 = 3 then egCounterNext s.egCounter else s.egCounter
    egSub := if s.egSub + 1 = 3 then 0 else s.egSub + 1
    sampleCount := s.sampleCount + 1 } := by
  unfold Chip.nativeTick Chip.recordChannels Chip.mapOps
  rw [beforeChannels_eq]

/-- What a tick leaves in each operator: the advanced phase and the shifted history over what the timers and the envelope made. -/
theorem nativeTick_op (c : ChIx) (o : OpIx) :
    s.nativeTick.1.op c o =
      (s.beforeChannels.op c o).record (s.beforeChannels.nextPhase c o) ((s.beforeChannels.chanOuts c).get o) := by
  have h := mapOps_op s.beforeChannels c o
    fun c o x => x.record (s.beforeChannels.nextPhase c o) ((s.beforeChannels.chanOuts c).get o)
  unfold Chip.nativeTick Chip.recordChannels
  rw [← h]
  rfl

/-- What the envelope clock does to each operator: on every third tick one envelope step with the new counter (R140, R320). -/
theorem egClock_op (c : ChIx) (o : OpIx) :
    s.egClock.op c o =
      if s.egSub + 1 = 3 then (s.op c o).egStep (s.keyCode c o) (egCounterNext s.egCounter) else s.op c o := by
  unfold Chip.egClock Chip.envelopeTick
  by_cases h : s.egSub + 1 = 3
  · simp only [if_pos h, mapOps_op]
    rfl
  · simp only [if_neg h]
    rfl

/-- What a tick has done to each operator when the channels are evaluated. -/
theorem beforeChannels_op (c : ChIx) (o : OpIx) :
    s.beforeChannels.op c o =
      if s.egSub + 1 = 3 then (s.timerStep.op c o).egStep (s.keyCode c o) (egCounterNext s.egCounter)
      else s.timerStep.op c o := by
  have hk : s.timerStep.lfoStep.keyCode c o = s.keyCode c o := by
    unfold Chip.keyCode
    rw [fSrc_congr (s := s)] <;> rw [timerStep_eq] <;> rfl
  have hs : s.timerStep.lfoStep.egSub = s.egSub := by rw [timerStep_eq]; rfl
  have hc : s.timerStep.lfoStep.egCounter = s.egCounter := by rw [timerStep_eq]; rfl
  unfold Chip.beforeChannels
  rw [egClock_op, hk, hs, hc]
  rfl

/-- The channels see the frequencies the tick started with. -/
theorem beforeChannels_fSrc (c : ChIx) (o : OpIx) : s.beforeChannels.fSrc c o = s.fSrc c o := by
  rw [fSrc_congr (s := s)] <;> rw [beforeChannels_eq]

/-- The channels see the channel registers the tick started with. -/
theorem beforeChannels_chan (c : ChIx) : s.beforeChannels.chan c = s.chan c := by
  rw [chan_of_ch (s := s)]
  rw [beforeChannels_eq]

end Sys2Proof.Machine
end

