-- ==== Sys2Proof/Tests/Slice0.lean ====
section
/-! SUPPORT. The model's own tests: well-formedness, decoding of words written out from 30_encoding.md, single steps with the results of
95_test_vectors.md, and for every statement with hypotheses a witness that meets them. -/

namespace Sys2Proof.Tests

open Sys2Proof Sys2Proof.Machine

/-! ## Helpers -/

/-- The block after an outcome; nothing where the step stopped. -/
def chipAfter (r : Result) : Option Chip :=
  match r with
  | .next t => some t.chip
  | .fault _ => none
  | .refused _ => none

/-- What an outcome returned to the host. -/
def replyAfter (r : Result) : Option Reply :=
  match r with
  | .next t => some t.reply
  | .fault _ => none
  | .refused _ => none

/-- The power-on machine with a block of one's own. -/
def withChip (k : Chip) : State := { State.reset with chip := k }

/-- The power-on machine with operations issued. -/
def issued (ops : List HostOp) : State := { State.reset with pending := ops }

/-- The block after a data write of `d` to part 0 with the latch at `a`. -/
def dw1At (a d : Byte) : Option Chip := chipAfter (exec (.dw1 d) (withChip { Chip.reset with addrLatch0 := a }))

/-- The block after a data write of `d` to part 1 with the latch at `a`. -/
def dw3At (a d : Byte) : Option Chip := chipAfter (exec (.dw3 d) (withChip { Chip.reset with addrLatch1 := a }))

/-! ## Well-formedness: an ill-formed term for each part of the check -/

theorem test_wf_refuses_lfo_word_as_ignore : (Instr.ignore .part0 0x22 0).wf = false := by decide
theorem test_wf_refuses_operator_word_as_ignore : (Instr.ignore .part1 0x30 0).wf = false := by decide
theorem test_wf_refuses_channel_word_as_ignore : (Instr.ignore .part0 0xB7 0).wf = false := by decide
theorem test_wf_takes_unused_addresses :
    (Instr.ignore .part0 0x1F 0).wf = true ∧ (Instr.ignore .part0 0x2F 0).wf = true ∧
      (Instr.ignore .part1 0x22 0).wf = true ∧ (Instr.ignore .part1 0xB8 0).wf = true := by decide

/-! ## Decoding, words written out bit by bit (30_encoding.md R80..R88, R91) -/

theorem test_decode_port_words :
    decodePort 0b000_00100010#11 = .aw0 0x22 ∧ decodePort 0b001_00001011#11 = .dw1 0x0B ∧
    decodePort 0b010_10110100#11 = .aw2 0xB4 ∧ decodePort 0b011_01000000#11 = .dw3 0x40 ∧
    decodePort 0b100_00000000#11 = .rd0 ∧ decodePort 0b101_00000000#11 = .rd1 ∧
    decodePort 0b110_00000000#11 = .rd2 ∧ decodePort 0b111_11111111#11 = .rd3 := by decide

theorem test_decode_global_words :
    decodeReg 0b0_00100010_00001011#17 = .lfo true 3 ∧
    decodeReg 0b0_00100100_10000000#17 = .timerAHi 0x80 ∧
    decodeReg 0b0_00100101_11111110#17 = .timerALo 2 ∧
    decodeReg 0b0_00100110_11001000#17 = .timerB 200 ∧
    decodeReg 0b0_00101010_11111111#17 = .dacSample 0xFF ∧
    decodeReg 0b0_00101011_01111111#17 = .dacEnable false := by decide

/-- One bit of `$27` at a time, and both Special encodings (R86, R87). -/
theorem test_decode_timer_control_bits :
    decodeReg 0b0_00100111_11000000#17 = .timerCtrl .special false false false false false false ∧
    decodeReg 0b0_00100111_01100000#17 = .timerCtrl .special true false false false false false ∧
    decodeReg 0b0_00100111_00010000#17 = .timerCtrl .normal false true false false false false ∧
    decodeReg 0b0_00100111_10001000#17 = .timerCtrl .csm false false true false false false ∧
    decodeReg 0b0_00100111_00000100#17 = .timerCtrl .normal false false false true false false ∧
    decodeReg 0b0_00100111_00000010#17 = .timerCtrl .normal false false false false true false ∧
    decodeReg 0b0_00100111_00000001#17 = .timerCtrl .normal false false false false false true := by decide

theorem test_decode_key_words :
    decodeReg 0b0_00101000_00010101#17 = .keyOnOff .ch4 1 ∧
    decodeReg 0b0_00101000_00001110#17 = .keyOnOff .ch5 0 ∧
    decodeReg 0b0_00101000_10000010#17 = .keyOnOff .ch2 8 ∧
    decodeReg 0b0_00101000_11110011#17 = .ignoreKeyChsel3 0b111100 ∧
    decodeReg 0b0_00101000_00000111#17 = .ignoreKeyChsel3 1 := by decide

theorem test_decode_operator_words :
    decodeReg 0b1_00110101_11111111#17 = .dtMul .ch4 .op3 7 15 ∧
    decodeReg 0b0_01001010_11111111#17 = .tl .ch2 .op2 127 ∧
    decodeReg 0b1_01011100_11011111#17 = .rsAr .ch3 .op4 3 31 ∧
    decodeReg 0b0_01100000_10011111#17 = .amD1r .ch0 .op1 true 31 ∧
    decodeReg 0b0_01110001_11110001#17 = .d2r .ch1 .op1 17 ∧
    decodeReg 0b0_10001101_11110000#17 = .d1lRr .ch1 .op4 15 0 ∧
    decodeReg 0b0_10010010_11111111#17 = .ssgEg .ch2 .op1 15 := by decide

theorem test_decode_operator_slot3_words :
    decodeReg 0b0_00110011_00000001#17 = .ignoreDtMulCh3 .part0 0 1 ∧
    decodeReg 0b1_01000111_00000010#17 = .ignoreTlCh3 .part1 1 2 ∧
    decodeReg 0b0_01011011_00000011#17 = .ignoreRsArCh3 .part0 2 3 ∧
    decodeReg 0b1_01101111_00000100#17 = .ignoreAmD1rCh3 .part1 3 4 ∧
    decodeReg 0b0_01110011_00011111#17 = .ignoreD2rCh3 .part0 0 31 ∧
    decodeReg 0b1_10000011_00000110#17 = .ignoreD1lRrCh3 .part1 0 6 ∧
    decodeReg 0b0_10011111_00000111#17 = .ignoreSsgEgCh3 .part0 3 7 := by decide

theorem test_decode_channel_words :
    decodeReg 0b1_10100000_01010101#17 = .fnumLo .ch3 0x55 ∧
    decodeReg 0b0_10100110_00111100#17 = .fnumHiBlock .ch2 7 4 ∧
    decodeReg 0b0_10101000_10011010#17 = .ch2OpFnumLo .op3 0x9A ∧
    decodeReg 0b0_10101101_00011010#17 = .ch2OpFnumHiBlock .op1 3 2 ∧
    decodeReg 0b0_10110000_00111101#17 = .fbAlg .ch0 7 5 ∧
    decodeReg 0b1_10110101_01101011#17 = .panAmsFms .ch4 false true 2 3 := by decide

theorem test_decode_channel_ignored_words :
    decodeReg 0b0_10100011_00010010#17 = .ignoreFnumLoCh3 .part0 0x12 ∧
    decodeReg 0b1_10100111_00000001#17 = .ignoreFnumHiBlockCh3 .part1 1 ∧
    decodeReg 0b1_10101001_00110100#17 = .ignoreCh2OpFnumLoPart1 1 0x34 ∧
    decodeReg 0b0_10101011_00000010#17 = .ignoreCh2OpFnumLoSel3 2 ∧
    decodeReg 0b1_10101111_00000011#17 = .ignoreCh2OpFnumHiBlockPart1 3 3 ∧
    decodeReg 0b0_10101111_00000100#17 = .ignoreCh2OpFnumHiBlockSel3 4 ∧
    decodeReg 0b1_10110011_00000101#17 = .ignoreFbAlgCh3 .part1 5 ∧
    decodeReg 0b0_10110111_11111111#17 = .ignorePanAmsFmsCh3 .part0 0xFF ∧
    decodeReg 0b1_00100111_11111111#17 = .ignore .part1 0x27 0xFF ∧
    decodeReg 0b0_00100001_11111111#17 = .ignore .part0 0x21 0xFF := by decide

theorem test_table_word_of_each_format :
    decodeTableWord 16 0x122 = some (.dw1 0x22) ∧ decodeTableWord 16 0x700 = some .rd3 ∧
    decodeTableWord 24 0x022 = some (.ignore .part0 0x00 0x22) ∧ decodeTableWord 24 0x1B56B = some (.panAmsFms .ch4 false true 2 3) ∧
    decodeTableWord 24 0x20000 = none := by decide

/-! ## A step fetches and runs the word it is given -/

theorem test_step_runs_fetched_word :
    chipAfter (step (State.reset.withFetchWord 24 0x02B80)) = some { Chip.reset with dacEnable := true } := by decide

theorem test_step_takes_the_word_off_the_queue :
    step (issued [.word 16 0x022, .tick 1]) = exec (.aw0 0x22) (issued [.tick 1]) := rfl

theorem test_step_refuses_port_4 : chipAfter (step (issued [.portWrite 4 0])) = none := by decide

/-! ## Port operations (95_test_vectors.md, port operations from power-on) -/

theorem test_aw0 : chipAfter (exec (.aw0 0xB4) .reset) = some { Chip.reset with addrLatch0 := 0xB4 } := by decide
theorem test_aw2 : chipAfter (exec (.aw2 0xB4) .reset) = some { Chip.reset with addrLatch1 := 0xB4 } := by decide
theorem test_dw1_unused_address : (dw1At 0x00 0x80).map (fun k => { k with busyUntil := 0 }) = some Chip.reset := by decide
theorem test_dw3_pan : (dw3At 0xB4 0x40).map (fun k => k.chan .ch3) = some { Channel.reset with panL := false } := by decide
theorem test_rd0_power_on : replyAfter (exec .rd0 .reset) = some (.byte 0x00) := by decide
theorem test_rd0_flags_and_busy :
    replyAfter (exec .rd0 (withChip { Chip.reset with
      busyUntil := 1, timerA := { Chip.reset.timerA with ov := true }, timerB := { Chip.reset.timerB with ov := true } })) =
      some (.byte 0x83) := by decide
theorem test_rd2_caches :
    (chipAfter (exec .rd2 (withChip { Chip.reset with sampleCount := 9, timerB := { Chip.reset.timerB with ov := true } }))).map
      (fun k => (k.statusCache, k.statusTime)) = some (0x02, 9) := by decide
theorem test_rd1_power_on : replyAfter (exec .rd1 .reset) = some (.byte 0x00) := by
  simp [replyAfter, exec, execRd1, cachedStatusRead, Chip.cachedStatus, State.reset, Chip.reset]
theorem test_rd3_keeps_block : chipAfter (exec .rd3 .reset) = some Chip.reset := by decide

/-! ## Register writes through the data ports (95_test_vectors.md, register interface) -/

theorem test_lfo : (dw1At 0x22 0x0B).map (·.lfo) = some ⟨true, 3, 0, 0, 0⟩ := by decide
theorem test_lfo_disable_clears :
    (chipAfter (exec (.lfo false 7) (withChip { Chip.reset with lfo := ⟨true, 7, 4, 65, 2⟩ }))).map (·.lfo) =
      some ⟨false, 7, 0, 0, 0⟩ := by decide
theorem test_timer_a_hi : (dw1At 0x24 0x80).map (fun k => k.timerA.period) = some 0x200 := by decide
theorem test_timer_a_lo :
    (chipAfter (exec (.timerALo 2) (withChip { Chip.reset with timerA := { Chip.reset.timerA with period := 0x200 } }))).map
      (fun k => k.timerA.period) = some 514 := by decide
theorem test_timer_b : (dw1At 0x26 0xC8).map (fun k => k.timerB.period) = some 200 := by decide
theorem test_timer_ctrl_special :
    (dw1At 0x27 0xC0).map (fun k => (k.ch3Mode, k.timerA, k.timerB)) = some (.special, Chip.reset.timerA, Chip.reset.timerB) := by
  decide
/-- Load and enable are kept, the flag is reset, and there is no load edge (program P2, operation 11). -/
theorem test_timer_ctrl_reset_without_edge :
    (chipAfter (exec (.timerCtrl .normal false true false true false true)
      (withChip { Chip.reset with timerA := ⟨1023, 5, true, true, true⟩ }))).map (·.timerA) =
      some ⟨1023, 5, true, true, false⟩ := by decide
theorem test_key_on :
    (dw1At 0x28 0x15).map (fun k => ((k.op .ch4 .op1).keyLatch, (k.op .ch4 .op1).egState, (k.op .ch4 .op2).keyLatch)) =
      some (true, .attack, false) := by decide
theorem test_key_ignored_select : (dw1At 0x28 0xF3).map (·.ops) = some Chip.reset.ops := by decide
theorem test_dac_sample : (dw1At 0x2A 0xFF).map (·.dacSample) = some 0xFF := by decide
theorem test_dac_enable : (dw1At 0x2B 0x7F).map (·.dacEnable) = some false := by decide
theorem test_dt_mul : (dw1At 0x31 0xF5).map (fun k => k.op .ch1 .op1) = some { Operator.reset with dt := 7, mul := 5 } := by decide
theorem test_dt_mul_slot1 : (dw3At 0x35 0xFF).map (fun k => k.op .ch4 .op3) = some { Operator.reset with dt := 7, mul := 15 } := by
  decide
theorem test_tl : (dw1At 0x4A 0xFF).map (fun k => k.op .ch2 .op2) = some { Operator.reset with tl := 127 } := by decide
theorem test_rs_ar : (dw3At 0x5C 0xDF).map (fun k => k.op .ch3 .op4) = some { Operator.reset with rs := 3, ar := 31 } := by decide
theorem test_am_d1r : (dw1At 0x60 0x9F).map (fun k => k.op .ch0 .op1) = some { Operator.reset with am := true, d1r := 31 } := by
  decide
theorem test_d2r : (dw1At 0x71 0xF1).map (fun k => k.op .ch1 .op1) = some { Operator.reset with d2r := 17 } := by decide
theorem test_d2r_ignored : (dw1At 0x73 0x1F).map (·.ops) = some Chip.reset.ops := by decide
theorem test_d1l_rr : (dw1At 0x8D 0xF0).map (fun k => k.op .ch1 .op4) = some { Operator.reset with d1l := 15 } := by decide
theorem test_ssg : (dw1At 0x92 0xFF).map (fun k => k.op .ch2 .op1) = some { Operator.reset with ssg := 15 } := by decide
theorem test_fnum_hi_latch : (dw1At 0xA6 0x3C).map (fun k => (k.fnumHiLatch, k.ch)) = some (0x3C, Chip.reset.ch) := by decide
theorem test_fnum_lo :
    (chipAfter (exec (.fnumLo .ch2 0x01) (withChip { Chip.reset with fnumHiLatch := 0x3C }))).map
      (fun k => ((k.chan .ch2).fnum, (k.chan .ch2).block, k.fnumHiLatch)) = some (0x401, 7, 0x3C) := by decide
theorem test_override_hi_latch : (dw1At 0xAD 0x1A).map (·.ch3HiLatch) = some 0x1A := by decide
theorem test_override_lo :
    (chipAfter (exec (.ch2OpFnumLo .op1 0x34) (withChip { Chip.reset with ch3HiLatch := 0x1A }))).map
      (fun k => (k.spFnum, k.spBlock)) = some (⟨0x234, 0, 0⟩, ⟨3, 0, 0⟩) := by decide
theorem test_override_part1_ignored : (dw3At 0xA9 0x34).map (fun k => (k.spFnum, k.spBlock)) = some (⟨0, 0, 0⟩, ⟨0, 0, 0⟩) := by
  decide
theorem test_fb_alg : (dw1At 0xB0 0x3D).map (fun k => k.chan .ch0) = some { Channel.reset with fb := 7, alg := 5 } := by decide
theorem test_pan_ams_fms :
    (dw3At 0xB5 0x6B).map (fun k => k.chan .ch4) = some { Channel.reset with panL := false, ams := 2, fms := 3 } := by decide
theorem test_ignored_addresses :
    (dw1At 0xB7 0xFF).map (fun k => (k.ch, k.ops)) = some (Chip.reset.ch, Chip.reset.ops) ∧
    (dw3At 0x27 0xFF).map (fun k => (k.timerA, k.timerB, k.ch3Mode)) =
      some (Chip.reset.timerA, Chip.reset.timerB, Chip.reset.ch3Mode) := by decide

/-! ## One tick -/

/-- V2: the silent chip. -/
theorem test_tick_silent : Chip.reset.nativeTick.2 = (384, 384) := by decide

/-- V3: Timer A at period 1023 overflows on the first tick. -/
theorem test_tick_timer_a :
    ({ Chip.reset with timerA := ⟨1023, 0, true, true, false⟩ }).nativeTick.1.timerA = ⟨1023, 0, true, true, true⟩ := by decide

/-- 45_timers_csm.md R253: the prescaler wraps, the count steps. -/
theorem test_tick_timer_b :
    ({ Chip.reset with timerB := ⟨254, 0, 15, true, true, false⟩ }).nativeTick.1.timerB = ⟨254, 1, 0, true, true, false⟩ := by
  decide

/-- The LFO table of 95_test_vectors.md, t = 640: the wrap from step 127 to step 0. -/
theorem test_tick_lfo_wrap :
    ({ Chip.reset with lfo := ⟨true, 7, 4, 127, 126⟩ }).nativeTick.1.lfo = ⟨true, 7, 0, 0, 126⟩ := by decide

/-- Vector E7, tick 3: on the third tick a Release of effective rate 63 raises the level by 8, on the others it does not. -/
theorem test_tick_envelope :
    let x : Operator := { Operator.reset with rr := 15, level := 0 }
    let k : Chip := { Chip.reset with
      ops := Chip.reset.ops.set .ch5 ⟨x, x, x, x⟩, ch := Chip.reset.ch.set .ch5 { Channel.reset with fnum := 0x29A, block := 4 } }
    (({ k with egSub := 2, egCounter := 2 }).nativeTick.1.op .ch5 .op3).level = 8 ∧
    (({ k with egSub := 1, egCounter := 2 }).nativeTick.1.op .ch5 .op3).level = 0 := by decide

/-- A channel as program P1 sets it up, with an algorithm, just keyed on. -/
def keyedOn (alg : BitVec 3) : Chip :=
  let x : Operator := { Operator.reset with mul := 1, ar := 31, egState := .decay, level := 0, keyLatch := true }
  { Chip.reset with
    ops := Chip.reset.ops.set .ch0 ⟨x, x, x, x⟩
    ch := Chip.reset.ch.set .ch0 { Channel.reset with fnum := 0x29A, block := 4, alg := alg } }

/-- Router table, algorithm 7, tick 1. -/
theorem test_tick_algorithm_7 : (keyedOn 7).nativeTick.2 = (896, 896) := by decide

/-- Router table, algorithm 0, tick 1: `275, 6264, 3192, -3192`. -/
theorem test_tick_algorithm_0 : (keyedOn 0).chanOuts .ch0 = ⟨275, 6264, 3192, -3192⟩ := by decide

/-- Router table, algorithm 6, tick 1: the sum is clamped nowhere at 6752. -/
theorem test_tick_algorithm_6 : (keyedOn 6).chanSample .ch0 = 6752 := by decide

/-- Program P5, tick 3, left: the DAC at its lowest value. -/
theorem test_tick_dac :
    ({ Chip.reset with
      dacEnable := true, ch := Chip.reset.ch.set .ch5 { Channel.reset with panR := false } }).nativeTick.2 = (-3840, 256) := by
  decide

/-! ## Vectors of the units -/

theorem test_key_codes :
    keyCodeOf ⟨0x29A, 4⟩ = 16 ∧ keyCodeOf ⟨0x780, 3⟩ = 15 ∧ keyCodeOf ⟨0x380, 2⟩ = 9 ∧ keyCodeOf ⟨0x400, 0⟩ = 2 ∧
    keyCodeOf ⟨0x7FF, 7⟩ = 31 ∧ keyCodeOf ⟨0x07F, 5⟩ = 20 ∧ keyCodeOf ⟨0x0FF, 1⟩ = 4 := by decide

theorem test_increments :
    incrementOf ⟨0x29A, 4⟩ 0 0 1 = 5328 ∧ incrementOf ⟨0x29A, 4⟩ 0 4 0 = 2664 ∧ incrementOf ⟨0x7FF, 7⟩ 0 0 15 = 916544 ∧
    incrementOf ⟨0x29A, 4⟩ 61 0 1 = 5572 ∧ incrementOf ⟨0x7FF, 7⟩ 190 0 1 = 6016 := by decide

/-- Vector E2, ticks 1 and 2. -/
theorem test_attack :
    (({ Operator.reset with egState := .attack, ar := 24 }).egStep 16 1).level = 895 ∧
    (({ Operator.reset with egState := .attack, ar := 24, level := 895 }).egStep 16 2).level = 839 := by decide

/-- Vector E5: the sustain comparison comes before the increment. -/
theorem test_decay_to_sustain :
    ({ Operator.reset with egState := .decay, d1r := 31, level := 0 }).egStep 16 1 =
      { Operator.reset with egState := .sustain, d1r := 31, level := 0 } := by decide

/-- The SSG-EG table, shape 0xA at counter 16: inverted repeat with an instant attack. -/
theorem test_ssg_repeat :
    let x := ({ Operator.reset with egState := .decay, ar := 31, d1r := 31, d1l := 15, ssg := 0xA, level := 480 }).egStep 16 16
    (x.egState, x.level, x.egOut) = (.decay, 0, 512) := by decide

/-- The SSG-EG table, shape 0xD at counter 16: hold, inverted. -/
theorem test_ssg_hold :
    let x := ({ Operator.reset with
      egState := .decay, ar := 31, d1r := 31, d1l := 15, ssg := 0xD, ssgInv := true, level := 480 }).egStep 16 16
    (x.egState, x.level, x.egOut) = (.decay, 512, 0) := by decide

/-- SSG-EG in Release: a firing increment of 2 at 0x1F8 gives 0x200, which becomes 0x3FF. -/
theorem test_ssg_release : (({ Operator.reset with rr := 12, ssg := 8, level := 0x1F8 }).egStep 16 1).level = 0x3FF := by decide

/-- 42_operator_output.md R191: total level, envelope and amplitude modulation. -/
theorem test_attenuation :
    attOf { Operator.reset with tl := 10, level := 100, am := true } 8 = 188 ∧
    ({ Chip.reset with
      lfo := { Chip.reset.lfo with am := 64 }, ch := Chip.reset.ch.set .ch0 { Channel.reset with ams := 1 } } : Chip).amDelta .ch0 = 8 ∧
    attOf { Operator.reset with tl := 0x40, level := 0x300 } 0 = 1023 := by decide

/-- 40_phase_generator.md R124: the detune subtraction wraps in 17 bits. -/
theorem test_detune_wrap : detuneApply 0 7 0 = 0x1FFFE ∧ detuneApply 0 3 0 = 2 := by decide

theorem test_op_out :
    opOut 5 0 = 275 ∧ opOut 142 0 = 6264 ∧ opOut 273 0 = 8124 ∧ opOut 532 0 = -1024 ∧
    opOut 0x0FF 831 = 1 ∧ opOut 0x0FF 832 = 0 := by decide

theorem test_ladder :
    ladder 8160 false = 128 ∧ ladder (-32) false = -128 ∧ ladder 2048 true = 2176 ∧ ladder (-8192) true = -8320 := by decide

/-! ## Witnesses: states and operands that meet the hypotheses of the statements -/

/-- StepRunsTheDecodedInstruction: each of the three clauses, the ports at both ends of their range. -/
theorem witness_step_runs :
    ((issued [.word 16 0x122]).pending = .word 16 0x122 :: [] ∧ decodeTableWord 16 0x122 = some (.dw1 0x22)) ∧
    ((issued [.portWrite 0 9]).pending = .portWrite 0 9 :: [] ∧ portWriteInstr 0 9 = some (.aw0 9)) ∧
    ((issued [.portWrite 3 9]).pending = .portWrite 3 9 :: [] ∧ portWriteInstr 3 9 = some (.dw3 9)) ∧
    ((issued [.portRead 0]).pending = .portRead 0 :: [] ∧ portReadInstr 0 = some .rd0) ∧
    ((issued [.portRead 3]).pending = .portRead 3 :: [] ∧ portReadInstr 3 = some .rd3) := by decide

/-- StepRunsTicksAndAdapterCalls: each clause. -/
theorem witness_host_calls :
    (issued [.tick 0]).pending = .tick 0 :: [] ∧ (issued [.advance 144]).pending = .advance 144 :: [] ∧
    (issued [.takeBuffer]).pending = .takeBuffer :: [] := by decide

/-- StepWithNothingIssuedIsIdle. -/
theorem witness_idle : State.reset.pending = [] := by decide

/-- PortOutsideRangeIsRefused: the first port outside. -/
theorem witness_port_outside :
    3 < 4 ∧ (issued [.portWrite 4 0]).pending = .portWrite 4 0 :: [] ∧ (issued [.portRead 4]).pending = .portRead 4 :: [] := by
  decide

/-- EveryInstructionCompletes, second clause: both ends of the port range, and a tick. -/
theorem witness_completes :
    (0 ≤ 3 ∧ (issued [.portWrite 0 0]).pending = .portWrite 0 0 :: []) ∧
    (3 ≤ 3 ∧ (issued [.portRead 3]).pending = .portRead 3 :: []) ∧ (issued [.tick 1]).pending = .tick 1 :: [] := by decide

/-- StepStopsOnlyOnUnacceptedOperation: accepted and not, at the boundary of each bound. -/
theorem witness_unaccepted :
    HostOp.accepted (.word 24 131071) = true ∧ HostOp.accepted (.word 24 131072) = false ∧
    HostOp.accepted (.portWrite 3 0) = true ∧ HostOp.accepted (.portWrite 4 0) = false ∧
    HostOp.accepted (.portRead 3) = true ∧ HostOp.accepted (.portRead 4) = false := by decide

/-- DecodeOfEncodeIsIdentity: a constructor with no check, and the one with a check at the edges of its addresses. -/
theorem witness_well_formed :
    (Instr.tl .ch5 .op4 127).wf = true ∧ (Instr.ignore .part0 0x1F 0).wf = true ∧ (Instr.ignore .part1 0x2F 0xFF).wf = true := by
  decide

/-- SilentChipStaysSilent: power-on, and a block that runs Timer A in CSM mode no more. -/
theorem witness_silent :
    Chip.reset.Silent ∧ ({ Chip.reset with timerA := ⟨5, 0, true, true, false⟩, ch3Mode := .special } : Chip).Silent := by
  refine ⟨⟨?_, rfl, Or.inl rfl⟩, ⟨?_, rfl, Or.inr (by decide)⟩⟩ <;> intro c o <;> cases c <;> cases o <;> decide

/-- AddressWriteChangesOnlyItsLatch, third clause: both alternatives. -/
theorem witness_data_writes :
    (∃ t, exec (.dw1 0) State.reset = .next t) ∧ (∃ t, exec (.dw3 0) State.reset = .next t) := ⟨⟨_, rfl⟩, ⟨_, rfl⟩⟩

/-- IgnoredClassesChangeOnlyBusy: an address of each class, on both parts where the class has both. -/
theorem witness_ignored_classes :
    ignoredClass .part0 Chip.reset.addrLatch0 0 = true ∧ ignoredClass .part1 Chip.reset.addrLatch1 0 = true ∧
    ignoredClass .part0 0x1F 0 = true ∧ ignoredClass .part1 0x20 0 = true ∧ ignoredClass .part1 0x2F 0 = true ∧
    ignoredClass .part0 0x2C 0 = true ∧ ignoredClass .part0 0x33 0 = true ∧ ignoredClass .part1 0xA8 0 = true ∧
    ignoredClass .part0 0x28 3 = true ∧ ignoredClass .part0 0xB7 0 = true ∧ ignoredClass .part0 0xFF 0 = true := by decide

/-- IgnoredWordsChangeNothing. -/
theorem witness_ignored_row : isIgnoreRow (.ignoreFbAlgCh3 .part1 5) = true := by decide

/-- LiveStatusReadReturnsAndCaches and CachedStatusReadReturnsCache: each alternative of the hypothesis. -/
theorem witness_reads :
    (Instr.rd0 = .rd0 ∨ Instr.rd0 = .rd2) ∧ (Instr.rd2 = .rd0 ∨ Instr.rd2 = .rd2) ∧
    (Instr.rd1 = .rd1 ∨ Instr.rd1 = .rd3) ∧ (Instr.rd3 = .rd1 ∨ Instr.rd3 = .rd3) := by decide

/-- SoundStateNeverReachesThePorts: two states that differ in the sound state alone, and a step that answers. -/
theorem witness_isolation :
    (issued [.portRead 0]).visible = { withChip (keyedOn 7) with pending := [.portRead 0] }.visible ∧
    issued [.portRead 0] ≠ { withChip (keyedOn 7) with pending := [.portRead 0] } ∧
    ∃ t, step (issued [.portRead 0]) = .next t := ⟨by decide, by decide, ⟨_, rfl⟩⟩

/-- KeyWriteActsOnLatchChanges: a key that goes on, one that goes off, one that stays; another channel; both kinds of data. -/
theorem witness_keys :
    ((5 : BitVec 4).getLsbD (OpIx.op1.number - 1) = true ∧ (Chip.reset.op .ch0 .op1).keyLatch = false) ∧
    ((0 : BitVec 4).getLsbD (OpIx.op4.number - 1) = false ∧ ((keyedOn 7).op .ch0 .op4).keyLatch = true) ∧
    ((8 : BitVec 4).getLsbD (OpIx.op4.number - 1) = true ∧ ((keyedOn 7).op .ch0 .op4).keyLatch = true) ∧
    ChIx.ch1 ≠ ChIx.ch0 ∧ (0xF7 : Byte).toNat % 4 = 3 ∧ (0xF6 : Byte).toNat % 4 ≠ 3 := by decide

/-- OperatorRegisterWrites, FrequencyHalvesCombineOnLowWrite, AlgorithmAndPanWrites: addresses at the ends of each range. -/
theorem witness_addresses :
    (0x30 ≤ (0x30 : Byte).toNat ∧ (0x30 : Byte).toNat ≤ 0x9F ∧ (0x30 : Byte).toNat % 4 ≠ 3) ∧
    (0x30 ≤ (0x9F : Byte).toNat ∧ (0x9F : Byte).toNat ≤ 0x9F ∧ (0x9F : Byte).toNat % 4 = 3) ∧
    ((0xA0 : Byte).toNat % 4 ≠ 3 ∧ (0xA0 : Byte).toNat / 4 = 0xA0 / 4) ∧
    ((0xA6 : Byte).toNat % 4 ≠ 3 ∧ (0xA6 : Byte).toNat / 4 = 0xA4 / 4) ∧
    ((0xB2 : Byte).toNat % 4 ≠ 3 ∧ (0xB2 : Byte).toNat / 4 = 0xB0 / 4) ∧
    ((0xB4 : Byte).toNat % 4 ≠ 3 ∧ (0xB4 : Byte).toNat / 4 = 0xB4 / 4) := by decide

/-- OverrideFrequencyWrites: another operator; the high-byte range and the part-1 range at both ends. -/
theorem witness_override :
    (0xAC ≤ (0xAC : Byte).toNat ∧ (0xAC : Byte).toNat ≤ 0xAE) ∧ (0xAC ≤ (0xAE : Byte).toNat ∧ (0xAE : Byte).toNat ≤ 0xAE) ∧
    SpIx.op2 ≠ SpIx.op1 ∧ (0xA8 ≤ (0xA8 : Byte).toNat ∧ (0xA8 : Byte).toNat ≤ 0xAF) ∧
    (0xA8 ≤ (0xAF : Byte).toNat ∧ (0xAF : Byte).toNat ≤ 0xAF) := by decide

/-- A block with both overflow flags set. -/
def overflowed : Chip :=
  { Chip.reset with timerA := { Chip.reset.timerA with ov := true }, timerB := { Chip.reset.timerB with ov := true } }

/-- OverflowFlagsChangeOnlyByOverflowAndReset: a write that clears both flags. -/
theorem witness_flag_cleared :
    ∃ t, exec (.timerCtrl .normal true true false false false false) (withChip overflowed) = .next t ∧
      overflowed.timerA.ov = true ∧ t.chip.timerA.ov = false ∧ overflowed.timerB.ov = true ∧ t.chip.timerB.ov = false :=
  ⟨_, rfl, rfl, rfl, rfl, rfl⟩

/-- KeyLatchWrittenOnlyByRegister28 and PhaseWrittenOnlyByTickAndKeyOn: a write that changes a latch. -/
theorem witness_latch_changed :
    ∃ t, exec (.keyOnOff .ch0 1) State.reset = .next t ∧ (t.chip.op .ch0 .op1).keyLatch ≠ (State.reset.chip.op .ch0 .op1).keyLatch :=
  ⟨_, rfl, by decide⟩

/-- TimersCountInATick: each clause at its boundary. -/
theorem witness_timers :
    Chip.reset.timerA.load = false ∧ Chip.reset.timerB.load = false ∧
    (let a : TimerA := ⟨1000, 23, true, true, false⟩; a.load = true ∧ a.cnt.toNat + 1 ≥ 1024 - a.period.toNat) ∧
    (let a : TimerA := ⟨1000, 22, true, true, false⟩; a.load = true ∧ a.cnt.toNat + 1 < 1024 - a.period.toNat) ∧
    (let b : TimerB := ⟨200, 55, 14, true, true, false⟩; b.load = true ∧ b.sub.toNat < 15) ∧
    (let b : TimerB := ⟨200, 55, 15, true, true, false⟩; b.load = true ∧ b.sub.toNat = 15 ∧ b.cnt.toNat + 1 ≥ 256 - b.period.toNat) ∧
    (let b : TimerB := ⟨200, 54, 15, true, true, false⟩; b.load = true ∧ b.sub.toNat = 15 ∧ b.cnt.toNat + 1 < 256 - b.period.toNat) := by
  decide

/-- TimerPeriodsAfterLoadEdge: a load edge of both timers. -/
theorem witness_load_edge :
    ∃ t, exec (.timerCtrl .normal false false true true true true) State.reset = .next t ∧
      State.reset.chip.timerA.load = false ∧ State.reset.chip.timerB.load = false := ⟨_, rfl, rfl, rfl⟩

/-- CsmReleasesThenTriggers: a pending release with an overflow in CSM mode. -/
theorem witness_csm :
    let s : Chip := { Chip.reset with timerA := ⟨1023, 0, true, false, false⟩, ch3Mode := .csm, csmPending := true }
    s.csmPending = true ∧ (s.op .ch2 .op1).keyLatch = false ∧ s.timerA.overflows = true ∧ s.ch3Mode = .csm ∧ ChIx.ch5 ≠ ChIx.ch2 := by
  decide

/-- LfoStepsInATick: the three clauses; at rate 7 the period is 5. -/
theorem witness_lfo :
    Chip.reset.lfo.enable = false ∧
    (let l : Lfo := ⟨true, 7, 3, 0, 0⟩; l.enable = true ∧ l.sub + 1 < [108, 77, 71, 67, 62, 44, 8, 5].getD l.freq.toNat 0) ∧
    (let l : Lfo := ⟨true, 7, 4, 0, 0⟩; l.enable = true ∧ [108, 77, 71, 67, 62, 44, 8, 5].getD l.freq.toNat 0 ≤ l.sub + 1) := by
  decide

/-- DisabledLfoModulatesNothing. -/
theorem witness_lfo_disabled : ∃ t, exec (.lfo false 7) State.reset = .next t := ⟨_, rfl⟩

/-- IncrementFollowsItsFormula, last clause: both detune values of magnitude 0. -/
theorem witness_no_detune : (0 : BitVec 3).toNat % 4 = 0 ∧ (4 : BitVec 3).toNat % 4 = 0 := by decide

/-- EnvelopeStepProperties: a frozen operator in Decay and one with SSG-EG in Attack; an instant attack; a Decay at its sustain
level and one below it. -/
theorem witness_envelope :
    (let x : Operator := { Operator.reset with egState := .decay, ssg := 8, level := 0x1FF }
     x.egState ≠ .release ∧ x.rate5 x.egState = 0 ∧ (x.ssgOn = true → x.egState = .attack ∨ x.level.toNat < 0x200)) ∧
    (let x : Operator := { Operator.reset with egState := .attack, ssg := 8 }
     x.egState ≠ .release ∧ x.rate5 x.egState = 0 ∧ (x.ssgOn = true → x.egState = .attack ∨ x.level.toNat < 0x200)) ∧
    (let x : Operator := { Operator.reset with egState := .attack, ar := 31 }
     x.egState = .attack ∧ 62 ≤ x.effRate .attack 0 ∧ (x.egStep 0 1).egState = .decay) ∧
    (let x : Operator := { Operator.reset with egState := .decay, d1l := 2, level := 64 }
     x.egState = .decay ∧ (x.ssgOn = true → x.level.toNat < 0x200) ∧ sustainLevel x.d1l ≤ x.level.toNat) ∧
    (let x : Operator := { Operator.reset with egState := .decay, d1l := 2, level := 63 }
     x.egState = .decay ∧ x.level.toNat < sustainLevel x.d1l) := by decide

/-- EnvelopeTransitions: both key-on clauses at the boundary; a released operator; a repeat boundary. -/
theorem witness_transitions :
    62 ≤ ({ Operator.reset with ar := 31 }).effRate .attack 0 ∧ ({ Operator.reset with ar := 30, rs := 0 }).effRate .attack 15 < 62 ∧
    Operator.reset.egState = .release ∧
    (let x : Operator := { Operator.reset with egState := .sustain, ssg := 8, level := 0x200 }
     x.ssgOn = true ∧ x.ssg.getLsbD 0 = false ∧ 0x200 ≤ x.level.toNat) := by decide

/-- TickRunsTheEnvelopeEveryThirdTime: the sub-clock at 2 and before. -/
theorem witness_envelope_clock :
    Chip.reset.egSub ≤ 2 ∧ Chip.reset.egSub ≠ 2 ∧ ({ Chip.reset with egSub := 2 } : Chip).egSub ≤ 2 := by decide

/-- OutputConversionProperties: a peak index, the last attenuation that sounds, and the ends of the table clauses. -/
theorem witness_peak :
    248 ≤ (quarterIndex 0x0F8).toNat ∧ 248 ≤ (quarterIndex 0x107).toNat ∧ (quarterIndex 0x0F7).toNat < 248 ∧ 831 ≤ 0x3FF ∧
    opOut 0x0F8 831 ≠ 0 ∧ opOut 0x0F8 832 = 0 ∧ 255 < 256 ∧ (0 : BitVec 8).toNat ≤ (255 : BitVec 8).toNat ∧
    248 ≤ (248 : BitVec 8).toNat := by decide

/-- SignalRanges: a history at the edge of its range. -/
theorem witness_history : ({ Operator.reset with hist0 := 8168, hist1 := -8168 } : Operator).Inv := by
  refine ⟨?_, ?_, ?_, ?_⟩ <;> decide

/-- AlgorithmTopology. -/
theorem witness_modulator : OpIx.op3 ∈ mods 0 .op4 := by decide

/-- CarrierSumClampsAfterEachAddition: an algorithm under each clause. -/
theorem witness_algorithms :
    ((3 : BitVec 3).toNat ≤ 3 ∧ (-8168 : Int) ≤ 8168 ∧ (8168 : Int) ≤ 8168) ∧ 4 ≤ (4 : BitVec 3).toNat ∧ (4 : BitVec 3).toNat = 4 ∧
    ((5 : BitVec 3).toNat = 5 ∨ (5 : BitVec 3).toNat = 6) ∧ (7 : BitVec 3).toNat = 7 := by decide

/-- DacReplacesOnlyChannel5Sample: both clauses, each alternative. -/
theorem witness_dac :
    ({ Chip.reset with dacEnable := true } : Chip).dacEnable = true ∧ (ChIx.ch0 ≠ ChIx.ch5 ∨ Chip.reset.dacEnable = false) ∧
    (ChIx.ch5 ≠ ChIx.ch5 ∨ Chip.reset.dacEnable = false) := by decide

/-- EveryOperatorIsEvaluatedEveryTick. -/
theorem witness_not_operator_1 : OpIx.op4 ≠ OpIx.op1 := by decide

/-- ResamplerAppendsWholePairs: the source's clock. -/
theorem witness_clock : 0 < 7670453 := by decide

/-- StepKeepsInvariant: a machine that meets the invariant and is about to tick. -/
theorem witness_invariant : (issued [.tick 1]).Inv ∧ ∃ t, step (issued [.tick 1]) = .next t := by
  refine ⟨⟨⟨?_, ?_, by decide, fun _ => rfl, Nat.zero_le _, by decide, by decide⟩,
    by decide, Config.cpuClockHz.pos, ?_, rfl⟩, ⟨_, rfl⟩⟩
  · intro c o
    cases c <;> cases o <;> refine ⟨?_, ?_, ?_, ?_⟩ <;> decide
  · exact ⟨by decide, by decide, fun _ => ⟨rfl, rfl, rfl⟩, Or.inr ⟨rfl, rfl⟩⟩
  · simp [issued, State.reset, Adapter.reset]

end Sys2Proof.Tests
end

section
/-! PROOFS. The step's dispatch (00_scope.md R11, 20_memory.md R69): a host operation that is an instruction runs it. -/

namespace Sys2Proof.Machine

variable {s : State} {op : HostOp} {rest : List HostOp} {i : Instr}

/-- The popped state keeps what stands behind the oldest operation. -/
theorem popped_of_pending_cons (h : s.pending = op :: rest) : s.popped = { s with pending := rest } := by
  rw [State.popped, h, List.tail_cons]

/-- The dispatch rule for instructions, whatever kind of host operation carries them. -/
theorem step_of_instr (h : s.pending = op :: rest) (hi : op.instr = .ok (some i)) :
    step s = exec i { s with pending := rest } := by
  simp only [step, h, List.head?_cons, hi, popped_of_pending_cons h]

/-- An operation word is the instruction it decodes to (30_encoding.md R80). -/
theorem instr_word {nbits w : Nat} (h : decodeTableWord nbits w = some i) :
    (HostOp.word nbits w).instr = .ok (some i) := by
  rw [HostOp.instr, h, instrOr]

/-- A port write is the instruction of its port (00_scope.md R11). -/
theorem instr_portWrite {port : Nat} {v : Byte} (h : portWriteInstr port v = some i) :
    (HostOp.portWrite port v).instr = .ok (some i) := by
  rw [HostOp.instr, h, instrOr]

/-- A port read is the instruction of its port (00_scope.md R11). -/
theorem instr_portRead {port : Nat} (h : portReadInstr port = some i) :
    (HostOp.portRead port).instr = .ok (some i) := by
  rw [HostOp.instr, h, instrOr]

/-- Settles O6: each of the three kinds of operation is the instruction it names, and the dispatch rule runs it. -/
theorem stepRunsTheDecodedInstruction : Obligations.StepRunsTheDecodedInstruction := by
  intro s rest i
  refine ⟨?word, ?portWrite, ?portRead⟩
  case word => exact fun _ _ hp hi => step_of_instr hp (instr_word hi)
  case portWrite => exact fun _ _ hp hi => step_of_instr hp (instr_portWrite hi)
  case portRead => exact fun _ hp hi => step_of_instr hp (instr_portRead hi)

end Sys2Proof.Machine
end

section
/-! PROOFS. Format R, the register write words: which kinds there are (20_memory.md R62), which word a kind can come from, and what
one of them can change in the block, said once. -/

namespace Sys2Proof

/-- What an instruction addresses: a port (30_encoding.md R80), a global register (R85), or the registers of the operators and
channels, the ignored words among them (R83, R84, R91). -/
inductive InstrKind where
  | port | global | voice

/-- The kind of an instruction. -/
def Instr.kind : Instr → InstrKind
  | .aw0 _ | .dw1 _ | .aw2 _ | .dw3 _ | .rd0 | .rd1 | .rd2 | .rd3 => .port
  | .lfo _ _ | .timerAHi _ | .timerALo _ | .timerB _ | .timerCtrl _ _ _ _ _ _ _ | .keyOnOff _ _ | .dacSample _ | .dacEnable _ =>
    .global
  | _ => .voice

/-! ## The words of each kind -/

theorem decodeGlobal_kind_ne_port (a d : Byte) : (decodeGlobal a d).kind ≠ .port := by
  unfold decodeGlobal
  repeat' split
  all_goals simp [Instr.kind]

theorem decodeOperator_kind (p : Part) (a d : Byte) : (decodeOperator p a d).kind = .voice := by
  unfold decodeOperator
  dsimp only
  split <;> rfl

theorem decodeChannel_kind (p : Part) (a d : Byte) : (decodeChannel p a d).kind = .voice := by
  unfold decodeChannel
  dsimp only
  repeat' split
  all_goals rfl

/-- A register word is a global one of part 0, decoded by its full address, or one of the voice kind. -/
theorem decodeReg_global_or_voice (p : Part) (a d : Byte) :
    (p = .part0 ∧ decodeReg (regWord p a d) = decodeGlobal a d) ∨ (decodeReg (regWord p a d)).kind = .voice := by
  rw [decodeReg_regWord]
  unfold decodeRegFields
  dsimp only
  split
  · exact .inr rfl
  split
  · cases p with
    | part0 => exact .inl ⟨rfl, rfl⟩
    | part1 => exact .inr rfl
  split
  · exact .inr (decodeOperator_kind p a d)
  split
  · exact .inr (decodeChannel_kind p a d)
  · exact .inr rfl

/-- No register word is a port operation. -/
theorem decodeReg_kind_ne_port (p : Part) (a d : Byte) : (decodeReg (regWord p a d)).kind ≠ .port := by
  rcases decodeReg_global_or_voice p a d with ⟨-, h⟩ | h
  · rw [h]
    exact decodeGlobal_kind_ne_port a d
  · simp [h]

/-- A global instruction comes from a word of part 0, decoded by its full address. -/
theorem decodeGlobal_of_decodeReg {p : Part} {a d : Byte} {i : Instr} (h : decodeReg (regWord p a d) = i)
    (hi : i.kind = .global) : p = .part0 ∧ decodeGlobal a d = i := by
  rcases decodeReg_global_or_voice p a d with ⟨hp, hg⟩ | hv
  · exact ⟨hp, hg ▸ h⟩
  · rw [h, hi] at hv
    cases hv

/-- A timer control write comes from the address `$27`; its reset bits are bits 5 and 4 of the data (R85, R86). -/
theorem eq_of_decodeGlobal_timerCtrl {a d : Byte} {m : Ch3Mode} {rB rA eB eA lB lA : Bool}
    (h : decodeGlobal a d = .timerCtrl m rB rA eB eA lB lA) : a = 0x27 ∧ rB = Field.resetB d ∧ rA = Field.resetA d := by
  unfold decodeGlobal at h
  split at h
  case h_5 ha =>
    cases h
    exact ⟨BitVec.eq_of_toNat_eq ha, rfl, rfl⟩
  case h_6 => split at h <;> cases h
  all_goals cases h

/-- A key write comes from the address `$28` (R85). -/
theorem eq_of_decodeGlobal_keyOnOff {a d : Byte} {c : ChIx} {keys : BitVec 4}
    (h : decodeGlobal a d = .keyOnOff c keys) : a = 0x28 := by
  unfold decodeGlobal at h
  split at h
  case h_6 ha => exact BitVec.eq_of_toNat_eq ha
  all_goals cases h

/-- Every timer control write has a word. -/
theorem exists_decodeReg_timerCtrl (m : Ch3Mode) (rB rA eB eA lB lA : Bool) :
    ∃ d, decodeReg (regWord .part0 0x27 d) = .timerCtrl m rB rA eB eA lB lA :=
  ⟨modeBitsOf m ++ bit rB ++ bit rA ++ bit eB ++ bit eA ++ bit lB ++ bit lA, by
    rw [decodeReg_regWord]
    revert rB rA eB eA lB lA
    cases m <;> decide⟩

/-- Every key write has a word. -/
theorem exists_decodeReg_keyOnOff (c : ChIx) (keys : BitVec 4) :
    ∃ d, decodeReg (regWord .part0 0x28 d) = .keyOnOff c keys :=
  ⟨keys ++ 0#1 ++ keySel c, by
    rw [decodeReg_regWord]
    revert keys
    cases c <;> decide⟩

/-! ## What each kind does to the timers and the LFO -/

/-- Timer A after an instruction that is a register word (46_register_interface.md R276, R277, R279). -/
def Instr.onTimerA (i : Instr) (t : Machine.TimerA) : Machine.TimerA :=
  match i with
  | .timerAHi hi => { t with period := Machine.periodAWithHigh t.period hi }
  | .timerALo lo => { t with period := Machine.periodAWithLow t.period lo }
  | .timerCtrl _ _ rA _ eA _ lA => t.control rA eA lA
  | _ => t

/-- Timer B after an instruction that is a register word (46_register_interface.md R278, R279). -/
def Instr.onTimerB (i : Instr) (t : Machine.TimerB) : Machine.TimerB :=
  match i with
  | .timerB period => { t with period := period }
  | .timerCtrl _ rB _ eB _ lB _ => t.control rB eB lB
  | _ => t

/-- The LFO after an instruction that is a register word (46_register_interface.md R275). -/
def Instr.onLfo (i : Instr) (l : Machine.Lfo) : Machine.Lfo :=
  match i with
  | .lfo true freq => { l with enable := true, freq := freq }
  | .lfo false freq => ⟨false, freq, 0, 0, 0⟩
  | _ => l

end Sys2Proof

namespace Sys2Proof.Machine

variable {i : Instr} {s t : State}

/-! ## What a register word changes -/

/-- From `s` to `t` nothing changed but what the register files hold: the host latches, the time stamps, the status cache, the
envelope clock and the CSM state are kept, and the timers and the LFO move as `i` moves them. -/
def RegWordFrame (i : Instr) (s t : Chip) : Prop :=
  t = { s with
    ops := t.ops, ch := t.ch, dacEnable := t.dacEnable, dacSample := t.dacSample, ch3Mode := t.ch3Mode
    spFnum := t.spFnum, spBlock := t.spBlock, fnumHiLatch := t.fnumHiLatch, ch3HiLatch := t.ch3HiLatch
    lfo := i.onLfo s.lfo, timerA := i.onTimerA s.timerA, timerB := i.onTimerB s.timerB }

/-- A register word answers a next state, and changes the block alone, within its frame. -/
theorem exec_regWord (hi : i.kind ≠ .port) (s : State) :
    ∃ k, exec i s = .next { s with chip := k } ∧ RegWordFrame i s.chip k := by
  cases i with
  | aw0 | dw1 | aw2 | dw3 | rd0 | rd1 | rd2 | rd3 => exact absurd rfl hi
  | lfo enable freq => cases enable <;> exact ⟨_, rfl, rfl⟩
  | _ => exact ⟨_, rfl, rfl⟩

/-- A data write on port 1 is its register word in the armed state (46_register_interface.md R272). -/
theorem exec_dw1 (v : Byte) (s : State) : exec (.dw1 v) s =
    exec (decodeReg (regWord .part0 s.chip.addrLatch0 v)) (s.onChip (Chip.armBusy Config.busySamples)) := by
  rw [exec_decodeReg]
  rfl

/-- A data write on port 3 is its register word in the armed state (46_register_interface.md R272). -/
theorem exec_dw3 (v : Byte) (s : State) : exec (.dw3 v) s =
    exec (decodeReg (regWord .part1 s.chip.addrLatch1 v)) (s.onChip (Chip.armBusy Config.busySamples)) := by
  rw [exec_decodeReg]
  rfl

/-- From `x` to `y` only the register fields moved: phase, envelope, key latch and history are kept. -/
def Operator.OnlyRegisters (x y : Operator) : Prop :=
  y = { x with
    dt := y.dt, mul := y.mul, tl := y.tl, rs := y.rs, ar := y.ar, d1r := y.d1r, d2r := y.d2r, rr := y.rr, d1l := y.d1l
    am := y.am, ssg := y.ssg }

/-- A write to one operator's registers writes at most the registers of every operator. -/
theorem modOp_onlyRegisters {f : Operator → Operator} (hf : ∀ x : Operator, x.OnlyRegisters (f x)) (k : Chip) (c c' : ChIx)
    (o o' : OpIx) : (k.op c' o').OnlyRegisters ((k.modOp c o f).op c' o') := by
  rw [modOp_op]
  split
  case isTrue h =>
    obtain ⟨rfl, rfl⟩ := h
    exact hf _
  case isFalse => rfl

/-- A register word writes at most an operator's registers, but for the key write of its channel (46_register_interface.md R283,
R286). -/
theorem exec_regWord_op (hi : i.kind ≠ .port) (h : exec i s = .next t) (c : ChIx) (o : OpIx) :
    (s.chip.op c o).OnlyRegisters (t.chip.op c o) ∨
    ∃ keys, i = .keyOnOff c keys ∧ t.chip.op c o = (s.chip.op c o).keyWrite (keyBit keys o) (s.chip.keyCode c o) := by
  cases i with
  | aw0 | dw1 | aw2 | dw3 | rd0 | rd1 | rd2 | rd3 => exact absurd rfl hi
  | dtMul | tl | rsAr | amD1r | d2r | d1lRr | ssgEg =>
    cases h
    refine .inl (modOp_onlyRegisters ?_ s.chip _ c _ o)
    exact fun _ => rfl
  | lfo enable =>
    cases h
    cases enable <;> exact .inl rfl
  | keyOnOff c' keys =>
    cases h
    have hop := mapChanOps_op s.chip c' c o fun o x => x.keyWrite (keyBit keys o) (s.chip.keyCode c' o)
    by_cases hc : c = c'
    · subst hc
      exact .inr ⟨keys, rfl, hop.trans (if_pos rfl)⟩
    · exact .inl (hop.trans (if_neg hc) ▸ rfl)
  | _ =>
    cases h
    exact .inl rfl

end Sys2Proof.Machine
end

section
/-! PROOFS. What the key operations, the envelope and the timers keep of an operator, and what a native tick leaves in each field. -/

namespace Sys2Proof.Machine

/-! ## An operator's history and key latch -/

section
variable (x : Operator) (kc : BitVec 5) (cnt : BitVec 12) (key : Bool)

/-- A key-on moves the phase and the envelope alone (41_envelope_generator.md R152). -/
theorem keyOn_eq : x.keyOn kc = { x with
    phase := 0, ssgInv := (x.keyOn kc).ssgInv, egState := (x.keyOn kc).egState, level := (x.keyOn kc).level } := by
  unfold Operator.keyOn Operator.toDecay
  dsimp only
  split <;> rfl

@[simp] theorem keyOn_hist0 : (x.keyOn kc).hist0 = x.hist0 := by rw [keyOn_eq]
@[simp] theorem keyOn_hist1 : (x.keyOn kc).hist1 = x.hist1 := by rw [keyOn_eq]
@[simp] theorem keyOn_keyLatch : (x.keyOn kc).keyLatch = x.keyLatch := by rw [keyOn_eq]
@[simp] theorem keyOff_hist0 : x.keyOff.hist0 = x.hist0 := by rw [keyOff_onlyEnvelope]
@[simp] theorem keyOff_hist1 : x.keyOff.hist1 = x.hist1 := by rw [keyOff_onlyEnvelope]
@[simp] theorem keyOff_keyLatch : x.keyOff.keyLatch = x.keyLatch := by rw [keyOff_onlyEnvelope]
@[simp] theorem egStep_hist0 : (x.egStep kc cnt).hist0 = x.hist0 := by rw [egStep_onlyEnvelope]
@[simp] theorem egStep_keyLatch : (x.egStep kc cnt).keyLatch = x.keyLatch := by rw [egStep_onlyEnvelope]

@[simp] theorem keyWrite_hist0 : (x.keyWrite key kc).hist0 = x.hist0 := by
  unfold Operator.keyWrite
  split <;> simp

@[simp] theorem keyWrite_hist1 : (x.keyWrite key kc).hist1 = x.hist1 := by
  unfold Operator.keyWrite
  split <;> simp

end

/-! ## The tick -/

variable (s : Chip)

/-- Timer A's step keys channel 2 on where it overflows in CSM mode (45_timers_csm.md R252, R257). -/
theorem timerAStep_op (c : ChIx) (o : OpIx) :
    s.timerAStep.op c o =
      if c = .ch2 ∧ s.timerA.overflows = true ∧ s.ch3Mode = .csm then (s.op c o).keyOn (s.keyCode c o) else s.op c o := by
  unfold Chip.timerAStep
  by_cases hov : s.timerA.overflows = true ∧ s.ch3Mode = .csm
  · rw [if_pos hov, csmKeyOn_op]
    exact if_congr (and_iff_left hov).symm rfl rfl
  · rw [if_neg hov, if_neg (fun h => hov h.2)]
    rfl

/-- A timer step releases the operators of channel 2 that are due, then keys all four on where Timer A triggers CSM (R251). -/
theorem timerStep_op (c : ChIx) (o : OpIx) :
    s.timerStep.op c o =
      if c = .ch2 ∧ s.timerA.overflows = true ∧ s.ch3Mode = .csm then (s.csmRelease.op c o).keyOn (s.keyCode c o)
      else s.csmRelease.op c o := by
  have hk : s.csmRelease.keyCode c o = s.keyCode c o := by
    unfold Chip.keyCode
    rw [fSrc_congr (s := s)] <;> rw [csmRelease_eq]
  have ha : s.csmRelease.timerA = s.timerA := by rw [csmRelease_eq]
  have hm : s.csmRelease.ch3Mode = s.ch3Mode := by rw [csmRelease_eq]
  rw [← hk, ← ha, ← hm]
  exact timerAStep_op s.csmRelease c o

@[simp] theorem timerStep_hist0 (c : ChIx) (o : OpIx) : (s.timerStep.op c o).hist0 = (s.op c o).hist0 := by
  rw [timerStep_op, csmRelease_op]
  split <;> split <;> simp

@[simp] theorem timerStep_keyLatch (c : ChIx) (o : OpIx) : (s.timerStep.op c o).keyLatch = (s.op c o).keyLatch := by
  rw [timerStep_op, csmRelease_op]
  split <;> split <;> simp

@[simp] theorem beforeChannels_hist0 (c : ChIx) (o : OpIx) : (s.beforeChannels.op c o).hist0 = (s.op c o).hist0 := by
  rw [beforeChannels_op]
  split <;> simp

@[simp] theorem beforeChannels_keyLatch (c : ChIx) (o : OpIx) : (s.beforeChannels.op c o).keyLatch = (s.op c o).keyLatch := by
  rw [beforeChannels_op]
  split <;> simp

/-- A tick shifts the history (42_operator_output.md R188). -/
@[simp] theorem nativeTick_hist1 (c : ChIx) (o : OpIx) : (s.nativeTick.1.op c o).hist1 = (s.op c o).hist0 := by
  rw [nativeTick_op]
  exact beforeChannels_hist0 s c o

/-- A tick records the output the channel made (42_operator_output.md R188). -/
@[simp] theorem nativeTick_hist0 (c : ChIx) (o : OpIx) :
    (s.nativeTick.1.op c o).hist0 = (s.beforeChannels.chanOuts c).get o := by
  rw [nativeTick_op]
  rfl

@[simp] theorem nativeTick_keyLatch (c : ChIx) (o : OpIx) : (s.nativeTick.1.op c o).keyLatch = (s.op c o).keyLatch := by
  rw [nativeTick_op]
  exact beforeChannels_keyLatch s c o

@[simp] theorem nativeTick_timerA : s.nativeTick.1.timerA = s.timerA.tick := by rw [nativeTick_eq]
@[simp] theorem nativeTick_timerB : s.nativeTick.1.timerB = s.timerB.tick := by rw [nativeTick_eq]
@[simp] theorem nativeTick_lfo : s.nativeTick.1.lfo = s.lfo.tick := by rw [nativeTick_eq]
@[simp] theorem nativeTick_addrLatch0 : s.nativeTick.1.addrLatch0 = s.addrLatch0 := by rw [nativeTick_eq]
@[simp] theorem nativeTick_addrLatch1 : s.nativeTick.1.addrLatch1 = s.addrLatch1 := by rw [nativeTick_eq]
@[simp] theorem nativeTick_busyUntil : s.nativeTick.1.busyUntil = s.busyUntil := by rw [nativeTick_eq]
@[simp] theorem nativeTick_statusCache : s.nativeTick.1.statusCache = s.statusCache := by rw [nativeTick_eq]
@[simp] theorem nativeTick_statusTime : s.nativeTick.1.statusTime = s.statusTime := by rw [nativeTick_eq]
@[simp] theorem nativeTick_sampleCount : s.nativeTick.1.sampleCount = s.sampleCount + 1 := by rw [nativeTick_eq]
@[simp] theorem nativeTick_egCounter :
    s.nativeTick.1.egCounter = if s.egSub + 1 = 3 then egCounterNext s.egCounter else s.egCounter := by rw [nativeTick_eq]
@[simp] theorem nativeTick_egSub : s.nativeTick.1.egSub = if s.egSub + 1 = 3 then 0 else s.egSub + 1 := by rw [nativeTick_eq]

/-! ## The host's loops in closed form -/

/-- The resampler's loop, with no more rounds than the accumulator holds (47_tick_and_host.md R324). -/
theorem emit_eq {clockHz : Nat} (lr : Int × Int) (n : Nat) {a : Adapter} (h : n * clockHz ≤ a.resampleAcc) :
    Adapter.emit clockHz lr n a = { a with
      resampleAcc := a.resampleAcc - n * clockHz
      outBuf := a.outBuf ++ (List.replicate n [lr.1, lr.2]).flatten } := by
  induction n generalizing a with
  | zero => simp [Adapter.emit]
  | succ n ih =>
    rw [Nat.succ_mul] at h
    rw [emit_succ_of_le lr n (by omega), ih (by dsimp only; omega)]
    simp [List.replicate_succ, Nat.succ_mul, Nat.sub_sub, Nat.add_comm]

/-- One resampling: the quotient says how many pairs, the remainder is kept (R324). -/
theorem resample_eq (clockHz rateHz : Nat) (lr : Int × Int) (a : Adapter) :
    Adapter.resample clockHz rateHz lr a = { a with
      resampleAcc := (a.resampleAcc + rateHz * 144) % clockHz
      outBuf := a.outBuf ++ (List.replicate ((a.resampleAcc + rateHz * 144) / clockHz) [lr.1, lr.2]).flatten } := by
  unfold Adapter.resample
  rw [emit_eq lr _ (Nat.div_mul_le_self _ _), Nat.mod_eq_sub_div_mul]

/-- `Advance`'s loop, with no more rounds than the cycles pay for, is as many native ticks (R323). -/
theorem advanceLoop_ticks {clockHz rateHz : Nat} (n : Nat) (s : Chip) {a : Adapter} (h : n * 144 ≤ a.cycleAcc) :
    (advanceLoop clockHz rateHz n (s, a)).1 = (s.ticks n).1 ∧
      (advanceLoop clockHz rateHz n (s, a)).2.cycleAcc = a.cycleAcc - n * 144 := by
  induction n generalizing s a with
  | zero => exact ⟨rfl, rfl⟩
  | succ n ih =>
    have hr : ∀ lr, (Adapter.resample clockHz rateHz lr { a with cycleAcc := a.cycleAcc - 144 }).cycleAcc = a.cycleAcc - 144 :=
      fun lr => by rw [resample_eq]
    rw [advanceLoop_succ_of_le n s (by omega)]
    obtain ⟨hticks, hcycles⟩ :=
      ih s.nativeTick.1 (a := Adapter.resample clockHz rateHz s.nativeTick.2 _) (by rw [hr]; omega)
    exact ⟨hticks, by rw [hcycles, hr]; omega⟩

/-- `Advance` is the native ticks its cycles pay for, and the rest is left over (R323). -/
theorem advance_ticks (clockHz rateHz cycles : Nat) (s : Chip) (a : Adapter) :
    (Machine.advance clockHz rateHz cycles (s, a)).1 = (s.ticks ((a.cycleAcc + cycles) / 144)).1 ∧
      (Machine.advance clockHz rateHz cycles (s, a)).2.cycleAcc = (a.cycleAcc + cycles) % 144 := by
  rw [Nat.mod_eq_sub_div_mul]
  exact advanceLoop_ticks _ s (a := { a with cycleAcc := a.cycleAcc + cycles }) (Nat.div_mul_le_self _ _)

/-- What holds of an adapter and every resampled tick keeps holds after `Advance`'s loop. -/
theorem advanceLoop_invariant {clockHz rateHz : Nat} {P : Adapter → Prop}
    (round : ∀ (s : Chip) (a : Adapter), P a →
      P (Adapter.resample clockHz rateHz s.nativeTick.2 { a with cycleAcc := a.cycleAcc - 144 }))
    (n : Nat) (s : Chip) {a : Adapter} (h : P a) : P (advanceLoop clockHz rateHz n (s, a)).2 := by
  induction n generalizing s a with
  | zero => exact h
  | succ n ih =>
    rcases Nat.lt_or_ge a.cycleAcc 144 with hlt | hge
    · rwa [advanceLoop_of_lt _ s hlt]
    · rw [advanceLoop_succ_of_le n s hge]
      exact ih _ (round s a h)

end Sys2Proof.Machine
end

section
/-! PROOFS. The step of the whole machine, said once: an idle step, an instruction, or a host operation. -/

namespace Sys2Proof.Machine

variable {s t : State}

/-- What a step that answers a next state did. -/
theorem step_cases (h : step s = .next t) :
    (s.pending = [] ∧ t = s) ∨ ∃ op rest, s.pending = op :: rest ∧
      ((∃ i, op.instr = .ok (some i) ∧ exec i { s with pending := rest } = .next t) ∨
        (op.instr = .ok none ∧ t = op.hostStep { s with pending := rest })) := by
  cases hp : s.pending with
  | nil =>
    simp only [step, hp, List.head?_nil] at h
    cases h
    exact .inl ⟨rfl, rfl⟩
  | cons op rest =>
    refine .inr ⟨op, rest, rfl, ?_⟩
    cases hi : op.instr with
    | error r => simp [step, hp, hi] at h
    | ok o =>
      cases o with
      | some i => exact .inl ⟨i, rfl, step_of_instr hp hi ▸ h⟩
      | none =>
        simp only [step, hp, List.head?_cons, hi, popped_of_pending_cons hp] at h
        cases h
        exact .inr ⟨rfl, rfl⟩

/-- With nothing issued a step is idle (60_exceptions.md R355). -/
theorem step_of_nil (h : s.pending = []) : step s = .next s := by
  simp only [step, h, List.head?_nil]

/-- The dispatch rule for the host operations that are no instruction. -/
theorem step_of_host {op : HostOp} {rest : List HostOp} (h : s.pending = op :: rest) (hi : op.instr = .ok none) :
    step s = .next (op.hostStep { s with pending := rest }) := by
  simp only [step, h, List.head?_cons, hi, popped_of_pending_cons h]

end Sys2Proof.Machine
end

section
/-! PROOFS. The invariant: every range of the state is kept by every step (10_state.md; 47_tick_and_host.md R326). -/

namespace Sys2Proof.Machine

/-! ## Output samples -/

/-- An operator's output is at most 8168 in magnitude (42_operator_output.md R183). -/
theorem opOut_range (idx : BitVec 10) (att : Nat) : -8168 ≤ opOut idx att ∧ opOut idx att ≤ 8168 := by
  have := opMag_le (quarterIndex idx) att
  unfold opOut
  dsimp only
  split <;> omega

/-- Every output a channel makes on a tick is an operator's output. -/
theorem chanOuts_range (s : Chip) (c : ChIx) (o : OpIx) :
    -8168 ≤ (s.chanOuts c).get o ∧ (s.chanOuts c).get o ≤ 8168 := by
  cases o <;> exact opOut_range _ _

/-- A channel sample before the ladder lies in the range of the 9-bit converter (43_algorithm_router.md R203..R206). -/
def inChannelRange (v : Int) : Prop := -8192 ≤ v ∧ v ≤ 8160

/-- Quantising an operator's output (R203). -/
theorem q9_range {x : Int} (h : -8168 ≤ x ∧ x ≤ 8168) : inChannelRange (q9 x) := by
  unfold inChannelRange q9
  rw [asr_eq_div]
  omega

theorem clampAcc_range (x : Int) : inChannelRange (clampAcc x) := by
  unfold inChannelRange clampAcc
  omega

/-- The sum of the carriers is clamped after each addition (R205). -/
theorem clampedSum_range {f : OpIx → Int} (l : List OpIx) {acc : Int} (h : inChannelRange acc) :
    inChannelRange (l.foldl (fun acc o => clampAcc (acc + f o)) acc) := by
  induction l generalizing acc with
  | nil => exact h
  | cons o l ih => exact ih (clampAcc_range _)

/-- The channel sample, from the carriers or from the DAC (R201, R206). -/
theorem chanSample_range (s : Chip) (c : ChIx) : inChannelRange (s.chanSample c) := by
  unfold Chip.chanSample
  split
  · have := s.dacSample.isLt
    unfold inChannelRange dacValue
    omega
  · exact clampedSum_range _ (q9_range (chanOuts_range s c _))

/-- The ladder widens the range by its offset (R207). -/
theorem ladder_range {v : Int} (en : Bool) (h : inChannelRange v) : -8320 ≤ ladder v en ∧ ladder v en ≤ 8288 := by
  obtain ⟨hlo, hhi⟩ := h
  unfold ladder
  repeat' split
  all_goals omega

/-- Half the sum of six ladder outputs (R208). -/
theorem halfSum_range {f : ChIx → Int} (h : ∀ c, -8320 ≤ f c ∧ f c ≤ 8288) : inSampleRange (asr (sumCh f) 1) := by
  have h0 := h .ch0
  have h1 := h .ch1
  have h2 := h .ch2
  have h3 := h .ch3
  have h4 := h .ch4
  have h5 := h .ch5
  unfold inSampleRange sumCh
  rw [asr_eq_div]
  omega

/-- Both sides of a native sample lie in the range of R208. -/
theorem nativeTick_sample_range (s : Chip) : inSampleRange s.nativeTick.2.1 ∧ inSampleRange s.nativeTick.2.2 :=
  ⟨halfSum_range fun _ => ladder_range _ (chanSample_range _ _), halfSum_range fun _ => ladder_range _ (chanSample_range _ _)⟩

/-! ## The LFO -/

theorem lfoPeriod_le (freq : BitVec 3) : lfoPeriod freq ≤ 108 := by
  revert freq
  decide

theorem tri_le (step : BitVec 7) : tri step ≤ 126 := by
  have := step.isLt
  unfold tri
  split <;> omega

/-- A tick keeps the ranges of the LFO (44_lfo.md R231). -/
theorem lfoTick_inv {l : Lfo} (h : l.Inv) : l.tick.Inv := by
  unfold Lfo.tick
  split
  case isTrue => exact h
  case isFalse hen =>
    obtain ⟨hsub, ham, -, htri⟩ := h
    have := lfoPeriod_le l.freq
    dsimp only
    split
    · exact ⟨Nat.zero_le _, tri_le _, fun he => absurd he hen, .inl rfl⟩
    · exact ⟨by dsimp only; omega, ham, fun he => absurd he hen, htri⟩

/-- A register word keeps the ranges of the LFO; disabling it resets the counters (44_lfo.md R235). -/
theorem onLfo_inv (i : Instr) {l : Lfo} (h : l.Inv) : (i.onLfo l).Inv := by
  cases i with
  | lfo enable freq =>
    cases enable with
    | true =>
      obtain ⟨hsub, ham, -, htri⟩ := h
      exact ⟨hsub, ham, nofun, htri⟩
    | false => exact ⟨Nat.zero_le _, Nat.zero_le _, fun _ => ⟨rfl, rfl, rfl⟩, .inr ⟨rfl, rfl⟩⟩
  | _ => exact h

/-! ## The block -/

/-- Bits 6..2 of the status byte are 0 (10_state.md R56). -/
theorem status_reserved (s : Chip) : s.status &&& 0x7C = 0 := by
  unfold Chip.status
  cases s.busy <;> cases s.timerB.ov <;> cases s.timerA.ov <;> decide

/-- The envelope counter skips 0 (41_envelope_generator.md R140). -/
theorem egCounterNext_ne_zero (cnt : BitVec 12) : egCounterNext cnt ≠ 0 := by
  unfold egCounterNext
  split <;> bv_omega

/-- The history is all that an operator's invariant reads. -/
theorem Operator.Inv.congr {x y : Operator} (h : x.Inv) (h0 : y.hist0 = x.hist0) (h1 : y.hist1 = x.hist1) : y.Inv := by
  unfold Operator.Inv
  rwa [h0, h1]

/-- A native tick keeps the block's invariant. -/
theorem nativeTick_inv {s : Chip} (h : s.Inv) : s.nativeTick.1.Inv := by
  obtain ⟨hops, hlfo, hsub, hcnt, hbusy, htime, hcache⟩ := h
  refine ⟨fun c o => ?ops, ?lfo, ?sub, ?cnt, ?busy, ?time, ?cache⟩
  case ops =>
    obtain ⟨hlo, hhi, -, -⟩ := hops c o
    have hout := chanOuts_range s.beforeChannels c o
    unfold Operator.Inv
    rw [nativeTick_hist0, nativeTick_hist1]
    exact ⟨hout.1, hout.2, hlo, hhi⟩
  case lfo => exact nativeTick_lfo s ▸ lfoTick_inv hlfo
  case sub =>
    rw [nativeTick_egSub]
    split <;> omega
  case cnt =>
    rw [nativeTick_egCounter, nativeTick_egSub, nativeTick_sampleCount]
    split
    · exact fun h0 => absurd h0 (egCounterNext_ne_zero _)
    · exact fun h0 => congrArg (· + 1) (hcnt h0)
  case busy =>
    rw [nativeTick_busyUntil, nativeTick_sampleCount]
    omega
  case time =>
    rw [nativeTick_statusTime, nativeTick_sampleCount]
    omega
  case cache => rwa [nativeTick_statusCache]

theorem ticks_inv (n : Nat) {s : Chip} (h : s.Inv) : (s.ticks n).1.Inv :=
  ticks_invariant (P := Chip.Inv) (fun _ => nativeTick_inv) n s h

/-- A data write's busy window ends `BUSY_SAMPLES` from now (10_state.md R51). -/
theorem armBusy_inv {s : Chip} (h : s.Inv) : (s.armBusy Config.busySamples).Inv := by
  obtain ⟨hops, hlfo, hsub, hcnt, -, htime, hcache⟩ := h
  exact ⟨hops, hlfo, hsub, hcnt, Nat.le_refl _, htime, hcache⟩

/-- A live status read caches the status of now (10_state.md R52, R56). -/
theorem cacheStatus_inv {s : Chip} (h : s.Inv) : s.cacheStatus.Inv := by
  obtain ⟨hops, hlfo, hsub, hcnt, hbusy, -, -⟩ := h
  exact ⟨hops, hlfo, hsub, hcnt, hbusy, Nat.le_refl _, status_reserved s⟩

/-! ## Instructions -/

variable {i : Instr} {s t : State}

/-- A register word keeps every operator's history. -/
theorem exec_regWord_op_inv (hi : i.kind ≠ .port) (h : exec i s = .next t) {c : ChIx} {o : OpIx}
    (hop : (s.chip.op c o).Inv) : (t.chip.op c o).Inv := by
  rcases exec_regWord_op hi h c o with hreg | ⟨keys, -, hkey⟩
  · exact hop.congr (by rw [hreg]) (by rw [hreg])
  · rw [hkey]
    exact hop.congr (keyWrite_hist0 _ _ _) (keyWrite_hist1 _ _ _)

/-- A register word keeps the invariant. -/
theorem exec_regWord_inv (hi : i.kind ≠ .port) (hs : s.Inv) (h : exec i s = .next t) : t.Inv := by
  obtain ⟨⟨hops, hlfo, hrest⟩, hadapter⟩ := hs
  have hops' : ∀ c o, (t.chip.op c o).Inv := fun c o => exec_regWord_op_inv hi h (hops c o)
  obtain ⟨k, hk, hframe⟩ := exec_regWord hi s
  rw [hk] at h
  cases h
  refine ⟨⟨hops', ?_⟩, hadapter⟩
  dsimp only
  rw [hframe]
  exact ⟨onLfo_inv i hlfo, hrest⟩

/-- Every instruction keeps the invariant. -/
theorem exec_inv (hs : s.Inv) (h : exec i s = .next t) : t.Inv := by
  have harmed : (s.onChip (Chip.armBusy Config.busySamples)).Inv := ⟨armBusy_inv hs.1, hs.2⟩
  cases i with
  | aw0 | aw2 | rd1 | rd3 =>
    cases h
    exact hs
  | rd0 | rd2 =>
    cases h
    exact ⟨cacheStatus_inv hs.1, hs.2⟩
  | dw1 v => exact exec_regWord_inv (decodeReg_kind_ne_port _ _ _) harmed (exec_dw1 v s ▸ h)
  | dw3 v => exact exec_regWord_inv (decodeReg_kind_ne_port _ _ _) harmed (exec_dw3 v s ▸ h)
  | _ => exact exec_regWord_inv (by simp [Instr.kind]) hs h

/-! ## The host adapter -/

/-- The adapter's invariant but for the cycles left over, which `Advance` restores only at its end. -/
def Adapter.ResampleInv (a : Adapter) : Prop :=
  a.resampleAcc < (Config.cpuClockHz : Nat) ∧ (∀ x ∈ a.outBuf, inSampleRange x) ∧ a.outBuf.length % 2 = 0

/-- The cycles left over play no part in it. -/
theorem Adapter.ResampleInv.withCycles {a : Adapter} (h : a.ResampleInv) (n : Nat) :
    ({ a with cycleAcc := n } : Adapter).ResampleInv := h

/-- Resampling a pair in range keeps the buffer in range and in pairs, and less than a clock's worth in the accumulator
(47_tick_and_host.md R324, R326). -/
theorem resample_inv {rateHz : Nat} {lr : Int × Int} (hlr : inSampleRange lr.1 ∧ inSampleRange lr.2) {a : Adapter}
    (h : a.ResampleInv) : (Adapter.resample Config.cpuClockHz rateHz lr a).ResampleInv := by
  obtain ⟨-, hbuf, hlen⟩ := h
  rw [resample_eq]
  refine ⟨Nat.mod_lt _ Config.cpuClockHz.pos, fun x hx => ?_, ?_⟩
  · simp only [List.mem_append, List.mem_flatten, List.mem_replicate] at hx
    rcases hx with hx | ⟨l, ⟨-, rfl⟩, hx⟩
    · exact hbuf x hx
    · rcases List.mem_pair.mp hx with rfl | rfl
      · exact hlr.1
      · exact hlr.2
  · simp only [List.length_append, List.length_flatten, List.map_replicate, List.sum_replicate, List.length_cons,
      List.length_nil, smul_eq_mul]
    omega

/-- `Advance` keeps the buffer in range and in pairs (R326). -/
theorem advance_resampleInv (rateHz cycles : Nat) (k : Chip) {a : Adapter} (h : a.ResampleInv) :
    (Machine.advance Config.cpuClockHz rateHz cycles (k, a)).2.ResampleInv := by
  unfold Machine.advance
  refine advanceLoop_invariant (P := Adapter.ResampleInv) ?_ _ k (h.withCycles _)
  exact fun k a ha => resample_inv (nativeTick_sample_range k) (ha.withCycles _)

/-- `Advance` keeps the invariant (R326). -/
theorem advance_inv (cycles : Nat) (h : s.Inv) : (s.advance cycles).Inv := by
  obtain ⟨hchip, -, hres⟩ := h
  obtain ⟨hticks, hcycles⟩ := advance_ticks Config.cpuClockHz Config.outputRateHz cycles s.chip s.adapter
  unfold State.advance
  refine ⟨?_, ?_, advance_resampleInv _ cycles s.chip hres⟩
  · dsimp only
    rw [hticks]
    exact ticks_inv _ hchip
  · dsimp only
    rw [hcycles]
    exact Nat.mod_lt _ (by omega)

/-- The operations that are no instruction keep the invariant. -/
theorem hostStep_inv (op : HostOp) (h : s.Inv) : (op.hostStep s).Inv := by
  cases op with
  | word | portWrite | portRead => exact h
  | tick n => exact ⟨ticks_inv n h.1, h.2⟩
  | advance cycles => exact advance_inv cycles h
  | takeBuffer =>
    obtain ⟨hchip, hcycles, hacc, -, -⟩ := h
    exact ⟨hchip, hcycles, hacc, fun x hx => absurd hx List.not_mem_nil, rfl⟩

/-- Settles O60: an idle step, an instruction and a host operation each keep the invariant. -/
theorem stepKeepsInvariant : Obligations.StepKeepsInvariant := by
  intro s t hs h
  rcases step_cases h with ⟨-, rfl⟩ | ⟨op, rest, -, ⟨i, -, hexec⟩ | ⟨-, rfl⟩⟩
  · exact hs
  · exact exec_inv (s := { s with pending := rest }) hs hexec
  · exact hostStep_inv op (s := { s with pending := rest }) hs

end Sys2Proof.Machine
end

section
/-! PROOFS. Isolation: the visible part of the machine (10_state.md R20) is a machine of its own. Every instruction and every host
operation moves it as a function of itself, so the sound state cannot reach it. -/

namespace Sys2Proof.Machine

/-! ## The visible machine -/

/-- A data write as the host sees it: the busy window, and the timers by the register word of its part and latch. -/
def Visible.dataWrite (part : Part) (latch data : Byte) (v : Visible) : Visible :=
  let w := decodeReg (regWord part latch data)
  { v with
    busyUntil := v.sampleCount + Config.busySamples, timerA := w.onTimerA v.timerA, timerB := w.onTimerB v.timerB }

/-- The status byte (10_state.md R56), from the visible part. -/
def Visible.status (v : Visible) : Byte :=
  BitVec.ofBool (decide (v.sampleCount < v.busyUntil)) ++ 0#5 ++ BitVec.ofBool v.timerB.ov ++ BitVec.ofBool v.timerA.ov

/-- The byte of a cached status read (46_register_interface.md R273), from the visible part. -/
def Visible.cachedStatus (v : Visible) : Byte :=
  if v.sampleCount < v.statusTime + Config.statusDecaySamples then v.statusCache else 0

/-- An instruction as the host sees it. -/
def Visible.exec (i : Instr) (v : Visible) : Visible :=
  match i with
  | .aw0 a => { v with addrLatch0 := a }
  | .aw2 a => { v with addrLatch1 := a }
  | .dw1 d => v.dataWrite .part0 v.addrLatch0 d
  | .dw3 d => v.dataWrite .part1 v.addrLatch1 d
  | .rd0 | .rd2 => { v with statusCache := v.status, statusTime := v.sampleCount }
  | .rd1 | .rd3 => v
  | i => { v with timerA := i.onTimerA v.timerA, timerB := i.onTimerB v.timerB }

/-- A native tick as the host sees it: the timers count, and time passes. -/
def Visible.nativeTick (v : Visible) : Visible :=
  { v with timerA := v.timerA.tick, timerB := v.timerB.tick, sampleCount := v.sampleCount + 1 }

/-- Native ticks as the host sees them. -/
def Visible.ticks : Nat → Visible → Visible
  | 0, v => v
  | n + 1, v => v.nativeTick.ticks n

/-- An operation that is no instruction, as the host sees it. -/
def Visible.hostStep (op : HostOp) (v : Visible) : Visible :=
  match op with
  | .tick n => v.ticks n
  | .advance cycles => { v.ticks ((v.cycleAcc + cycles) / 144) with cycleAcc := (v.cycleAcc + cycles) % 144 }
  | _ => v

/-! ## The machine moves its visible part so -/

variable {i : Instr} {s t : State}

/-- A register word moves nothing visible but the timers. -/
theorem exec_regWord_visible (hi : i.kind ≠ .port) (h : exec i s = .next t) :
    t.visible = { s.visible with timerA := i.onTimerA s.chip.timerA, timerB := i.onTimerB s.chip.timerB } := by
  obtain ⟨k, hk, hframe⟩ := exec_regWord hi s
  rw [hk] at h
  cases h
  unfold State.visible
  dsimp only
  rw [hframe]

/-- Every instruction moves the visible part as the visible machine does. -/
theorem exec_visible (h : exec i s = .next t) : t.visible = Visible.exec i s.visible := by
  cases i with
  | aw0 | aw2 | rd0 | rd1 | rd2 | rd3 =>
    cases h
    rfl
  | dw1 v => exact exec_regWord_visible (decodeReg_kind_ne_port _ _ _) (exec_dw1 v s ▸ h)
  | dw3 v => exact exec_regWord_visible (decodeReg_kind_ne_port _ _ _) (exec_dw3 v s ▸ h)
  | _ => exact exec_regWord_visible (by simp [Instr.kind]) h

/-- Every instruction is defined in every state, and leaves the queue alone (60_exceptions.md R340). -/
theorem exec_next (i : Instr) (s : State) : ∃ t, exec i s = .next t ∧ t.pending = s.pending := by
  cases i <;> exact ⟨_, rfl, rfl⟩

theorem exec_pending (h : exec i s = .next t) : t.pending = s.pending := by
  obtain ⟨t', ht', hp⟩ := exec_next i s
  rw [h] at ht'
  cases ht'
  exact hp

theorem nativeTick_visible (s : State) : (s.onChip fun k => k.nativeTick.1).visible = s.visible.nativeTick := by
  simp [State.visible, State.onChip, Visible.nativeTick]

theorem ticks_visible (n : Nat) (s : State) : (s.onChip fun k => (k.ticks n).1).visible = s.visible.ticks n := by
  induction n generalizing s with
  | zero => rfl
  | succ n ih =>
    have h := ih (s.onChip fun k => k.nativeTick.1)
    rwa [nativeTick_visible] at h

/-- `Advance` shows the host the ticks its cycles pay for, and the cycles left over; the samples it resamples stay unseen. -/
theorem advance_visible (cycles : Nat) (s : State) : (s.advance cycles).visible = s.visible.hostStep (.advance cycles) := by
  obtain ⟨hticks, hcycles⟩ := advance_ticks Config.cpuClockHz Config.outputRateHz cycles s.chip s.adapter
  unfold State.advance Visible.hostStep
  dsimp only
  rw [State.visible, hticks, hcycles, ← ticks_visible]
  rfl

/-- Every host operation that is no instruction moves the visible part as the visible machine does. -/
theorem hostStep_visible (op : HostOp) (s : State) : (op.hostStep s).visible = s.visible.hostStep op := by
  cases op with
  | word | portWrite | portRead | takeBuffer => rfl
  | tick n => exact ticks_visible n s
  | advance cycles => exact advance_visible cycles s

theorem hostStep_pending (op : HostOp) (s : State) : (op.hostStep s).pending = s.pending := by
  cases op <;> rfl

/-- A port read returns a byte of the visible part (46_register_interface.md R271, R273). -/
theorem exec_portRead_reply {port : Nat} (hi : portReadInstr port = some i) (h : exec i s = .next t) :
    t.reply = .byte (if port % 2 = 0 then s.visible.status else s.visible.cachedStatus) := by
  unfold portReadInstr at hi
  split at hi <;> cases hi <;> cases h <;> rfl

/-- A port read that is accepted is an instruction, that of its port. -/
theorem portReadInstr_of_instr {port : Nat} {o : Option Instr} (h : (HostOp.portRead port).instr = .ok o) :
    ∃ i, o = some i ∧ portReadInstr port = some i := by
  rw [HostOp.instr] at h
  cases hi : portReadInstr port with
  | some i =>
    rw [hi] at h
    cases h
    exact ⟨i, rfl, rfl⟩
  | none =>
    rw [hi] at h
    cases h

/-! ## Isolation -/

/-- Settles O21: both machines take the same operation, and each moves its visible part as the visible machine does. -/
theorem soundStateNeverReachesThePorts : Obligations.SoundStateNeverReachesThePorts := by
  intro s₁ s₂ t₁ hv hp h₁
  rcases step_cases h₁ with ⟨hnil, rfl⟩ | ⟨op, rest, hcons, hop⟩
  case inl => exact ⟨s₂, step_of_nil (hp ▸ hnil), hv, hp, fun port rest h => by simp [hnil] at h⟩
  have hv' : ({ s₁ with pending := rest } : State).visible = ({ s₂ with pending := rest } : State).visible := hv
  rcases hop with ⟨i, hi, hexec₁⟩ | ⟨hi, rfl⟩
  · obtain ⟨t₂, hexec₂, hpending₂⟩ := exec_next i { s₂ with pending := rest }
    refine ⟨t₂, step_of_instr (hp ▸ hcons) hi ▸ hexec₂, ?visible, ?pending, ?reply⟩
    case visible => rw [exec_visible hexec₁, exec_visible hexec₂, hv']
    case pending => rw [exec_pending hexec₁, hpending₂]
    case reply =>
      intro port rest' hread
      rw [hcons] at hread
      cases hread
      obtain ⟨i, hsome, hport⟩ := portReadInstr_of_instr hi
      cases hsome
      rw [exec_portRead_reply hport hexec₁, exec_portRead_reply hport hexec₂, hv']
  · refine ⟨_, step_of_host (hp ▸ hcons) hi, ?visible, ?pending, ?reply⟩
    case visible => rw [hostStep_visible, hostStep_visible, hv']
    case pending => rw [hostStep_pending, hostStep_pending]
    case reply =>
      intro port rest' hread
      rw [hcons] at hread
      cases hread
      obtain ⟨i, hnone, -⟩ := portReadInstr_of_instr hi
      cases hnone

end Sys2Proof.Machine
end

section
/-! PROOFS. Who writes the overflow flags and the key latches (10_state.md R35, R54). -/

namespace Sys2Proof.Machine

variable {i : Instr} {s t : State}

/-! ## Register words -/

/-- The flags move under no register word but the timer control write, which clears them by its reset bits (R279). -/
theorem onTimers_ov (i : Instr) (a : TimerA) (b : TimerB) :
    ((i.onTimerA a).ov = a.ov ∧ (i.onTimerB b).ov = b.ov) ∨
    ∃ m rB rA eB eA lB lA, i = .timerCtrl m rB rA eB eA lB lA ∧
      (i.onTimerA a).ov = ovAfterReset rA a.ov ∧ (i.onTimerB b).ov = ovAfterReset rB b.ov := by
  cases i with
  | timerCtrl m rB rA eB eA lB lA => exact .inr ⟨m, rB, rA, eB, eA, lB, lA, rfl, rfl, rfl⟩
  | _ => exact .inl ⟨rfl, rfl⟩

/-- Among the words, it is `$27` of part 0 whose reset bits clear the flags. -/
theorem decodeReg_onTimers_ov (p : Part) (latch d : Byte) (a : TimerA) (b : TimerB) :
    let w := decodeReg (regWord p latch d)
    ((w.onTimerA a).ov = a.ov ∧ (w.onTimerB b).ov = b.ov) ∨
    (p = .part0 ∧ latch = 0x27 ∧ (w.onTimerA a).ov = ovAfterReset (Field.resetA d) a.ov ∧
      (w.onTimerB b).ov = ovAfterReset (Field.resetB d) b.ov) := by
  intro w
  rcases onTimers_ov w a b with hkept | ⟨m, rB, rA, eB, eA, lB, lA, hw, hA, hB⟩
  · exact .inl hkept
  · obtain ⟨hp, hg⟩ := decodeGlobal_of_decodeReg hw rfl
    obtain ⟨hlatch, rfl, rfl⟩ := eq_of_decodeGlobal_timerCtrl hg
    exact .inr ⟨hp, hlatch, hA, hB⟩

/-- A register word other than the key write keeps every key latch (46_register_interface.md R283). -/
theorem exec_regWord_keyLatch (hi : i.kind ≠ .port) (h : exec i s = .next t) :
    (∀ c o, (t.chip.op c o).keyLatch = (s.chip.op c o).keyLatch) ∨ ∃ c keys, i = .keyOnOff c keys := by
  by_cases hkey : ∃ c keys, i = .keyOnOff c keys
  · exact .inr hkey
  · refine .inl fun c o => ?_
    rcases exec_regWord_op hi h c o with hreg | ⟨keys, hk, -⟩
    · rw [hreg]
    · exact absurd ⟨c, keys, hk⟩ hkey

/-- Among the words, it is `$28` of part 0 that writes key latches. -/
theorem exec_decodeReg_keyLatch {p : Part} {latch d : Byte} (h : exec (decodeReg (regWord p latch d)) s = .next t) :
    (∀ c o, (t.chip.op c o).keyLatch = (s.chip.op c o).keyLatch) ∨ (p = .part0 ∧ latch = 0x28) := by
  rcases exec_regWord_keyLatch (decodeReg_kind_ne_port p latch d) h with hkept | ⟨c, keys, hw⟩
  · exact .inl hkept
  · obtain ⟨hp, hg⟩ := decodeGlobal_of_decodeReg hw rfl
    exact .inr ⟨hp, eq_of_decodeGlobal_keyOnOff hg⟩

/-! ## Instructions -/

/-- A reset sets no flag. -/
theorem ov_of_ovAfterReset {reset ov : Bool} (h : ovAfterReset reset ov = true) : ov = true := by
  simp only [ovAfterReset, Bool.and_eq_true] at h
  exact h.1

/-- A flag that a reset cleared had its reset bit set. -/
theorem reset_of_cleared {reset ov : Bool} (hset : ov = true) (hclear : ovAfterReset reset ov = false) : reset = true := by
  simpa [ovAfterReset, hset] using hclear

/-- An instruction keeps both flags, or is a `$27` write and clears them by its reset bits. -/
theorem exec_ov (h : exec i s = .next t) :
    (t.chip.timerA.ov = s.chip.timerA.ov ∧ t.chip.timerB.ov = s.chip.timerB.ov) ∨
    ∃ d, writesPart0 i s.chip 0x27 d ∧ t.chip.timerA.ov = ovAfterReset (Field.resetA d) s.chip.timerA.ov ∧
      t.chip.timerB.ov = ovAfterReset (Field.resetB d) s.chip.timerB.ov := by
  have hA : t.chip.timerA = (Visible.exec i s.visible).timerA := congrArg Visible.timerA (exec_visible h)
  have hB : t.chip.timerB = (Visible.exec i s.visible).timerB := congrArg Visible.timerB (exec_visible h)
  rw [hA, hB]
  cases i with
  | dw1 d =>
    rcases decodeReg_onTimers_ov .part0 s.chip.addrLatch0 d s.chip.timerA s.chip.timerB with hkept | ⟨-, hlatch, hov⟩
    · exact .inl hkept
    · exact .inr ⟨d, .inr ⟨rfl, hlatch⟩, hov⟩
  | dw3 d =>
    rcases decodeReg_onTimers_ov .part1 s.chip.addrLatch1 d s.chip.timerA s.chip.timerB with hkept | ⟨hp, -⟩
    · exact .inl hkept
    · cases hp
  | timerCtrl m rB rA eB eA lB lA =>
    obtain ⟨d, hd⟩ := exists_decodeReg_timerCtrl m rB rA eB eA lB lA
    obtain ⟨-, rfl, rfl⟩ := eq_of_decodeGlobal_timerCtrl (decodeGlobal_of_decodeReg hd rfl).2
    exact .inr ⟨d, .inl hd.symm, rfl, rfl⟩
  | _ => exact .inl ⟨rfl, rfl⟩

/-- An instruction keeps every key latch, or is a `$28` write. -/
theorem exec_keyLatch (h : exec i s = .next t) :
    (∀ c o, (t.chip.op c o).keyLatch = (s.chip.op c o).keyLatch) ∨ ∃ d, writesPart0 i s.chip 0x28 d := by
  cases i with
  | aw0 | aw2 | rd0 | rd1 | rd2 | rd3 =>
    cases h
    exact .inl fun _ _ => rfl
  | dw1 d =>
    rcases exec_decodeReg_keyLatch (exec_dw1 d s ▸ h) with hkept | ⟨-, hlatch⟩
    · exact .inl hkept
    · exact .inr ⟨d, .inr ⟨rfl, hlatch⟩⟩
  | dw3 d =>
    rcases exec_decodeReg_keyLatch (exec_dw3 d s ▸ h) with hkept | ⟨hp, -⟩
    · exact .inl hkept
    · cases hp
  | keyOnOff c keys =>
    obtain ⟨d, hd⟩ := exists_decodeReg_keyOnOff c keys
    exact .inr ⟨d, .inl hd.symm⟩
  | _ =>
    refine .inl ((exec_regWord_keyLatch (by simp [Instr.kind]) h).resolve_right ?_)
    rintro ⟨c, keys, hw⟩
    cases hw

/-! ## Ticks -/

/-- Timer A's flag after a step (45_timers_csm.md R252). -/
theorem timerA_tick_ov (a : TimerA) : a.tick.ov = (a.ov || (a.enable && a.overflows)) := by
  unfold TimerA.tick
  split
  case isTrue hload =>
    split
    case isTrue hover => simp [ovAfterOverflow, hover]
    case isFalse hover => simp [hover]
  case isFalse hload => simp [TimerA.overflows, hload]

/-- The prescaler wraps from 15 (45_timers_csm.md R253). -/
theorem timerB_sub_wraps (sub : BitVec 4) : sub + 1 = 0 ↔ sub = 15#4 := by bv_omega

/-- Timer B's flag after a step (R253). -/
theorem timerB_tick_ov (b : TimerB) :
    b.tick.ov = (b.ov || (b.enable && b.load && b.sub == 15 && decide (b.cnt.toNat + 1 ≥ 256 - b.period.toNat))) := by
  unfold TimerB.tick
  dsimp only
  simp only [timerB_sub_wraps]
  split
  case isTrue hload =>
    split
    case isTrue hsub =>
      split
      case isTrue hcnt => simp [ovAfterOverflow, hload, hsub, hcnt]
      case isFalse hcnt => simp [hcnt]
    case isFalse hsub => simp [hsub]
  case isFalse hload => simp [hload]

/-! ## The claims -/

/-- Settles O31: instructions by `exec_ov`, ticks by the two timers' own steps; busy is a comparison. -/
theorem overflowFlagsChangeOnlyByOverflowAndReset : Obligations.OverflowFlagsChangeOnlyByOverflowAndReset := by
  refine ⟨fun i s t h => ?instr, fun s => ⟨?tickA, ?tickB⟩, fun s => decide_eq_true_iff⟩
  case instr =>
    rcases exec_ov h with ⟨hA, hB⟩ | ⟨d, hd, hA, hB⟩
    · rw [hA, hB]
      exact ⟨id, id, fun hset hclear => (nomatch hset.symm.trans hclear), fun hset hclear => (nomatch hset.symm.trans hclear)⟩
    · rw [hA, hB]
      exact ⟨ov_of_ovAfterReset, ov_of_ovAfterReset, fun hset hclear => ⟨d, reset_of_cleared hset hclear, hd⟩,
        fun hset hclear => ⟨d, reset_of_cleared hset hclear, hd⟩⟩
  case tickA => rw [nativeTick_timerA, timerA_tick_ov]
  case tickB => rw [nativeTick_timerB, timerB_tick_ov]

/-- Settles O32: instructions by `exec_keyLatch`, ticks by `nativeTick_keyLatch`; power-on by evaluation. -/
theorem keyLatchWrittenOnlyByRegister28 : Obligations.KeyLatchWrittenOnlyByRegister28 := by
  refine ⟨fun i s t c o h hne => ?instr, nativeTick_keyLatch, fun c o => ?powerOn⟩
  case instr => exact (exec_keyLatch h).resolve_left fun hkept => hne (hkept c o)
  case powerOn => cases c <;> cases o <;> rfl

end Sys2Proof.Machine
end

section
/-! PROOFS. The parts of an assembled word and of an assembled byte: each field of 30_encoding.md R80..R86 read back from the
concatenation that the encoder writes. -/

namespace Sys2Proof

/-! ## Parts of a concatenation -/

section
variable {l m n : Nat} (x : BitVec l) (y : BitVec m) (z : BitVec n)

theorem slice_append_low : (y ++ z).extractLsb' 0 n = z := BitVec.extractLsb'_append_eq_right

theorem slice_append_high : (y ++ z).extractLsb' n m = y := BitVec.extractLsb'_append_eq_left

theorem slice_append_mid : (x ++ y ++ z).extractLsb' n m = y := by
  rw [BitVec.extractLsb'_append_eq_of_le (Nat.le_refl n), Nat.sub_self, slice_append_low]

theorem slice_append_top : (x ++ y ++ z).extractLsb' (m + n) l = x := by
  rw [BitVec.extractLsb'_append_eq_of_le (Nat.le_add_left n m), Nat.add_sub_cancel, slice_append_high]

end

/-! ## Format P words (R80) -/

@[simp] theorem portWord_selector (sel : BitVec 3) (v : Byte) : (portWord sel v).extractLsb' 8 3 = sel := slice_append_high sel v

@[simp] theorem portWord_byte (sel : BitVec 3) (v : Byte) : (portWord sel v).extractLsb' 0 8 = v := slice_append_low sel v

/-! ## The address byte (R83, R84) -/

section
variable (g : BitVec 4) (s k : BitVec 2) (cg : BitVec 6)

@[simp] theorem Field.group_operatorAddr : Field.group (g ++ s ++ k) = g := slice_append_top g s k
@[simp] theorem Field.slot_operatorAddr : Field.slot (g ++ s ++ k) = s := slice_append_mid g s k
@[simp] theorem Field.chan_operatorAddr : Field.chan (g ++ s ++ k) = k := slice_append_low (g ++ s) k
@[simp] theorem Field.chanGroup_channelAddr : Field.chanGroup (cg ++ k) = cg := slice_append_high cg k
@[simp] theorem Field.chan_channelAddr : Field.chan (cg ++ k) = k := slice_append_low cg k

theorem operatorAddr_toNat : (g ++ s ++ k).toNat = g.toNat * 16 + s.toNat * 4 + k.toNat := by
  rw [append_toNat, append_toNat]
  omega

theorem channelAddr_toNat (cg : BitVec 6) (k : BitVec 2) : (cg ++ k).toNat = cg.toNat * 4 + k.toNat := append_toNat cg k

theorem operatorAddr_fields (a : Byte) : Field.group a ++ Field.slot a ++ Field.chan a = a := by
  apply BitVec.eq_of_toNat_eq
  rw [operatorAddr_toNat, Field.group, Field.slot, Field.chan, slice_toNat, slice_toNat, slice_toNat]
  omega

theorem channelAddr_fields (a : Byte) : Field.chanGroup a ++ Field.chan a = a := by
  apply BitVec.eq_of_toNat_eq
  rw [channelAddr_toNat, Field.chanGroup, Field.chan, slice_toNat, slice_toNat]
  omega

end

/-! ## The data byte (R86): one lemma per field, whatever stands in the bits of no field -/

namespace Field

section
variable (b l r : Bool) (v₁ : BitVec 1) (v₂ : BitVec 2) (v₃ u₃ : BitVec 3) (v₄ u₄ : BitVec 4) (v₅ : BitVec 5)
  (v₆ : BitVec 6) (v₇ : BitVec 7)

@[simp] theorem lfoEnable_append : lfoEnable (v₄ ++ bit b ++ v₃) = b := by
  simp only [lfoEnable, BitVec.getLsbD_append]
  simp [bit]
@[simp] theorem lfoFreq_append : lfoFreq (v₅ ++ v₃) = v₃ := slice_append_low v₅ v₃
@[simp] theorem periodALo_append : periodALo (v₆ ++ v₂) = v₂ := slice_append_low v₆ v₂
@[simp] theorem keys_append : keys (v₄ ++ v₁ ++ v₃) = v₄ := slice_append_top v₄ v₁ v₃
@[simp] theorem chsel_append : chsel (v₅ ++ v₃) = v₃ := slice_append_low v₅ v₃
@[simp] theorem dacEnable_append : dacEnable (bit b ++ v₇) = b := by
  simp only [dacEnable, BitVec.getLsbD_append]
  simp [bit]
@[simp] theorem dt_append : dt (v₁ ++ v₃ ++ v₄) = v₃ := slice_append_mid v₁ v₃ v₄
@[simp] theorem mul_append : mul (u₄ ++ v₄) = v₄ := slice_append_low u₄ v₄
@[simp] theorem tl_append : tl (v₁ ++ v₇) = v₇ := slice_append_low v₁ v₇
@[simp] theorem rs_append : rs (v₂ ++ v₁ ++ v₅) = v₂ := slice_append_top v₂ v₁ v₅
@[simp] theorem ar_append : ar (v₃ ++ v₅) = v₅ := slice_append_low v₃ v₅
@[simp] theorem am_append : am (bit b ++ v₂ ++ v₅) = b := by
  simp only [am, BitVec.getLsbD_append]
  simp [bit]
@[simp] theorem d1r_append : d1r (v₃ ++ v₅) = v₅ := slice_append_low v₃ v₅
@[simp] theorem d2r_append : d2r (v₃ ++ v₅) = v₅ := slice_append_low v₃ v₅
@[simp] theorem d1l_append : d1l (u₄ ++ v₄) = u₄ := slice_append_high u₄ v₄
@[simp] theorem rr_append : rr (u₄ ++ v₄) = v₄ := slice_append_low u₄ v₄
@[simp] theorem ssg_append : ssg (u₄ ++ v₄) = v₄ := slice_append_low u₄ v₄
@[simp] theorem block_append : block (v₂ ++ u₃ ++ v₃) = u₃ := slice_append_mid v₂ u₃ v₃
@[simp] theorem fnumHi_append : fnumHi (v₅ ++ v₃) = v₃ := slice_append_low v₅ v₃
@[simp] theorem fb_append : fb (v₂ ++ u₃ ++ v₃) = u₃ := slice_append_mid v₂ u₃ v₃
@[simp] theorem alg_append : alg (v₅ ++ v₃) = v₃ := slice_append_low v₅ v₃
@[simp] theorem panL_append : panL (bit l ++ bit r ++ v₂ ++ v₁ ++ v₃) = l := by
  simp only [panL, BitVec.getLsbD_append]
  simp [bit]
@[simp] theorem panR_append : panR (bit l ++ bit r ++ v₂ ++ v₁ ++ v₃) = r := by
  simp only [panR, BitVec.getLsbD_append]
  simp [bit]
@[simp] theorem ams_append : ams (bit l ++ bit r ++ v₂ ++ v₁ ++ v₃) = v₂ := by
  apply BitVec.eq_of_toNat_eq
  simp only [ams, slice_toNat, append_toNat]
  omega
@[simp] theorem fms_append : fms (v₅ ++ v₃) = v₃ := slice_append_low v₅ v₃

end

section
variable (mode : BitVec 2) (rB rA eB eA lB lA : Bool)

@[simp] theorem modeBits_append : modeBits (mode ++ bit rB ++ bit rA ++ bit eB ++ bit eA ++ bit lB ++ bit lA) = mode := by
  apply BitVec.eq_of_toNat_eq
  simp only [modeBits, slice_toNat, append_toNat]
  omega
@[simp] theorem resetB_append : resetB (mode ++ bit rB ++ bit rA ++ bit eB ++ bit eA ++ bit lB ++ bit lA) = rB := by
  simp only [resetB, BitVec.getLsbD_append]
  simp [bit]
@[simp] theorem resetA_append : resetA (mode ++ bit rB ++ bit rA ++ bit eB ++ bit eA ++ bit lB ++ bit lA) = rA := by
  simp only [resetA, BitVec.getLsbD_append]
  simp [bit]
@[simp] theorem enableB_append : enableB (mode ++ bit rB ++ bit rA ++ bit eB ++ bit eA ++ bit lB ++ bit lA) = eB := by
  simp only [enableB, BitVec.getLsbD_append]
  simp [bit]
@[simp] theorem enableA_append : enableA (mode ++ bit rB ++ bit rA ++ bit eB ++ bit eA ++ bit lB ++ bit lA) = eA := by
  simp only [enableA, BitVec.getLsbD_append]
  simp [bit]
@[simp] theorem loadB_append : loadB (mode ++ bit rB ++ bit rA ++ bit eB ++ bit eA ++ bit lB ++ bit lA) = lB := by
  simp only [loadB, BitVec.getLsbD_append]
  simp [bit]
@[simp] theorem loadA_append : loadA (mode ++ bit rB ++ bit rA ++ bit eB ++ bit eA ++ bit lB ++ bit lA) = lA := by
  simp only [loadA, BitVec.getLsbD_append]
  simp [bit]

end

end Field

end Sys2Proof
end

section
/-! PROOFS. The address map (20_memory.md R62) as four kinds of register address, and what the decoder does at each. -/

namespace Sys2Proof

/-! ## Kinds of register address -/

/-- The global registers of part 0 (30_encoding.md R85). -/
def globalAddrs : List Byte := [0x22, 0x24, 0x25, 0x26, 0x27, 0x28, 0x2A, 0x2B]

/-- An address of a part is an ignored one, a global register, or lies in a register group of the operators (R83: `$30`..`$9F`) or
of the channels (R84: `$A0`..`$B7`). -/
inductive RegAddr : Part → Byte → Prop where
  | ignored {p a} (h : ignoredAddr p a = true) : RegAddr p a
  | global {a} (h : a ∈ globalAddrs) : RegAddr .part0 a
  | operator (p) {g : BitVec 4} (s k : BitVec 2) (h3 : 3 ≤ g.toNat) (h9 : g.toNat ≤ 9) : RegAddr p (g ++ s ++ k)
  | channel (p) {g : BitVec 6} (k : BitVec 2) (h28 : 0x28 ≤ g.toNat) (h2D : g.toNat ≤ 0x2D) : RegAddr p (g ++ k)

theorem ignored_or_global {a : Byte} (h : a.toNat / 16 = 2) : ignoredAddr .part0 a = true ∨ a ∈ globalAddrs := by
  revert a
  decide

theorem row_of_mem_globalAddrs {a : Byte} (h : a ∈ globalAddrs) : a.toNat / 16 = 2 := by
  revert a
  decide

theorem operatorGroup_cases {g : BitVec 4} (h3 : 3 ≤ g.toNat) (h9 : g.toNat ≤ 9) :
    g = 3 ∨ g = 4 ∨ g = 5 ∨ g = 6 ∨ g = 7 ∨ g = 8 ∨ g = 9 := by
  revert g
  decide

/-- The override registers of channel 2, or a register of each channel. -/
theorem channelGroup_cases {g : BitVec 6} (h28 : 0x28 ≤ g.toNat) (h2D : g.toNat ≤ 0x2D) :
    (g = 0x2A ∨ g = 0x2B) ∨ (g = 0x28 ∨ g = 0x29 ∨ g = 0x2C ∨ g = 0x2D) := by
  revert g
  decide

/-- Every address is of one of the four kinds. -/
theorem regAddr (p : Part) (a : Byte) : RegAddr p a := by
  have ha := a.isLt
  by_cases h2 : a.toNat < 0x20
  · exact .ignored (by simp [ignoredAddr, h2])
  by_cases h3 : a.toNat < 0x30
  · cases p with
    | part0 => exact (ignored_or_global (by omega)).elim .ignored .global
    | part1 => exact .ignored (by simp [ignoredAddr]; omega)
  by_cases hA : a.toNat < 0xA0
  · have hg : (Field.group a).toNat = a.toNat / 16 % 16 := slice_toNat a 4 4
    exact operatorAddr_fields a ▸ .operator p _ _ (by omega) (by omega)
  by_cases hB : a.toNat < 0xB8
  · have hg : (Field.chanGroup a).toNat = a.toNat / 4 % 64 := slice_toNat a 2 6
    exact channelAddr_fields a ▸ .channel p _ (by omega) (by omega)
  · exact .ignored (by simp [ignoredAddr]; omega)

/-! ## The decoder at each kind of address -/

/-- The addresses of `$20`..`$2F` that are no global register (R85). -/
theorem decodeGlobal_ignored {a : Byte} (d : Byte) (h : ignoredAddr .part0 a = true) : decodeGlobal a d = .ignore .part0 a d := by
  simp only [ignoredAddr, Bool.or_eq_true, Bool.and_eq_true, decide_eq_true_eq, beq_iff_eq] at h
  unfold decodeGlobal
  split
  case h_9 => rfl
  all_goals omega

theorem decodeReg_ignored {p : Part} {a : Byte} (d : Byte) (h : ignoredAddr p a = true) :
    decodeReg (regWord p a d) = .ignore p a d := by
  rw [decodeReg_regWord]
  unfold decodeRegFields
  dsimp only
  split
  · rfl
  split
  · cases p with
    | part0 => exact decodeGlobal_ignored d h
    | part1 => rfl
  · simp only [ignoredAddr, Bool.or_eq_true, Bool.and_eq_true, decide_eq_true_eq] at h
    rw [if_neg (by omega), if_neg (by omega)]

theorem decodeReg_global {a : Byte} (d : Byte) (h : a.toNat / 16 = 2) : decodeReg (regWord .part0 a d) = decodeGlobal a d := by
  rw [decodeReg_regWord]
  unfold decodeRegFields
  dsimp only
  rw [if_neg (by omega), if_pos (by omega)]

theorem decodeReg_operator (p : Part) {g : BitVec 4} (s k : BitVec 2) (d : Byte) (h3 : 3 ≤ g.toNat) (h9 : g.toNat ≤ 9) :
    decodeReg (regWord p (g ++ s ++ k) d) = decodeOperator p (g ++ s ++ k) d := by
  have ha := operatorAddr_toNat g s k
  rw [decodeReg_regWord]
  unfold decodeRegFields
  dsimp only
  rw [if_neg (by omega), if_neg (by omega), if_pos (by omega)]

theorem decodeReg_channel (p : Part) {g : BitVec 6} (k : BitVec 2) (d : Byte) (h28 : 0x28 ≤ g.toNat) (h2D : g.toNat ≤ 0x2D) :
    decodeReg (regWord p (g ++ k) d) = decodeChannel p (g ++ k) d := by
  have ha := channelAddr_toNat g k
  rw [decodeReg_regWord]
  unfold decodeRegFields
  dsimp only
  rw [if_neg (by omega), if_neg (by omega), if_neg (by omega), if_pos (by omega)]

end Sys2Proof
end

section
/-! PROOFS. Decoder and encoder: each operand index survives its bits (30_encoding.md R83, R84, R87, R88), and so does every
well-formed instruction its word (R80, R81). -/

namespace Sys2Proof

/-! ## Indices and their bits -/

@[simp] theorem chanOf_chanBits (c : ChIx) : chanOf (chanBits c).1 (chanBits c).2 = some c := by cases c <;> rfl

/-- The selector value 3 names no channel, and it is the only one (R83, R84). -/
theorem chanOf_eq_none_iff (p : Part) (k : BitVec 2) : chanOf p k = none ↔ k = 3 := by
  revert k
  cases p <;> decide

@[simp] theorem chanOf_three (p : Part) : chanOf p 3#2 = none := (chanOf_eq_none_iff p 3#2).mpr rfl

@[simp] theorem slotOp_opSlot (o : OpIx) : slotOp (opSlot o) = o := by cases o <;> rfl

@[simp] theorem spOf_spSel (o : SpIx) : spOf (spSel o) = some o := by cases o <;> rfl

theorem spOf_eq_none_iff (k : BitVec 2) : spOf k = none ↔ k = 3 := by
  revert k
  decide

@[simp] theorem spOf_three : spOf 3#2 = none := rfl

@[simp] theorem modeOf_modeBitsOf (m : Ch3Mode) : modeOf (modeBitsOf m) = m := by cases m <;> rfl

@[simp] theorem keyChan_keySel (c : ChIx) : keyChan (keySel c) = some c := by cases c <;> rfl

/-- The channel selects 3 and 7 of a key write name no channel, and they are the only ones (R88). -/
theorem keyChan_chsel_eq_none_iff (d : Byte) : keyChan (Field.chsel d) = none ↔ d.extractLsb' 0 2 = 3 := by
  revert d
  decide

/-! ## Decode after encode -/

theorem decode_encode (i : Instr) (h : i.wf = true) : decode (encode i) = i := by
  cases i with
  | aw0 | dw1 | aw2 | dw3 | rd0 | rd1 | rd2 | rd3 => simp [encode, decode, decodePort]
  | ignore p a d => exact decodeReg_ignored d h
  | ignoreKeyChsel3 rest =>
    have hc : keyChan (Field.chsel (rest ++ 3#2)) = none := (keyChan_chsel_eq_none_iff _).mpr (slice_append_low rest 3#2)
    have hr : (rest ++ 3#2).extractLsb' 2 6 = rest := slice_append_high rest 3#2
    simp [encode, decode, decodeReg_global, decodeGlobal, hc, hr]
  | lfo | timerAHi | timerALo | timerB | timerCtrl | keyOnOff | dacSample | dacEnable =>
    simp [encode, decode, decodeReg_global, decodeGlobal]
  | dtMul | tl | rsAr | amD1r | d2r | d1lRr | ssgEg =>
    simp [encode, decode, opWord, decodeReg_operator, decodeOperator]
  | ignoreDtMulCh3 | ignoreTlCh3 | ignoreRsArCh3 | ignoreAmD1rCh3 | ignoreD2rCh3 | ignoreD1lRrCh3 | ignoreSsgEgCh3 =>
    simp [encode, decode, opWordCh3, decodeReg_operator, decodeOperator]
  | fnumLo | fnumHiBlock | fbAlg | panAmsFms =>
    simp [encode, decode, chWord, decodeReg_channel, decodeChannel]
  | ch2OpFnumLo | ch2OpFnumHiBlock | ignoreCh2OpFnumLoPart1 | ignoreCh2OpFnumHiBlockPart1 =>
    simp [encode, decode, chWordSel, decodeReg_channel, decodeChannel]
  | ignoreFnumLoCh3 | ignoreFnumHiBlockCh3 | ignoreFbAlgCh3 | ignorePanAmsFmsCh3 | ignoreCh2OpFnumLoSel3
  | ignoreCh2OpFnumHiBlockSel3 =>
    simp [encode, decode, chWordSel, decodeReg_regWord, decodeRegFields, decodeChannel, Field.chanGroup, Field.chan]

theorem encodedFormat (i : Instr) : Laws.EncodedFormat.Statement i := by
  cases h : encode i with
  | port w => exact Laws.EncodedFormat.of_port h
  | reg w => exact Laws.EncodedFormat.of_reg h

/-- Settles O4: `decode_encode`, and the encoded word survives the table's numbering. -/
theorem decodeOfEncodeIsIdentity : Obligations.DecodeOfEncodeIsIdentity := by
  intro i h
  refine ⟨decode_encode i h, ?table⟩
  case table => rw [decodeTableWord, encodedFormat i, Option.map_some, decode_encode i h]

end Sys2Proof
end

section
/-! PROOFS. What every word decodes to: well-formed instructions (30_encoding.md R93), the port operations (R80), and an ignored
row exactly at the classes of R91. -/

namespace Sys2Proof

/-! ## Well-formedness -/

theorem decodePort_wf (w : BitVec 11) : (decodePort w).wf = true := by
  unfold decodePort
  dsimp only
  split <;> rfl

theorem decodeGlobal_wf {a : Byte} (d : Byte) (h : a ∈ globalAddrs) : (decodeGlobal a d).wf = true := by
  unfold decodeGlobal
  split
  case h_6 => split <;> rfl
  case h_9 =>
    exfalso
    revert a
    decide
  all_goals rfl

theorem decodeOperator_wf (p : Part) {g : BitVec 4} (s k : BitVec 2) (d : Byte) (h3 : 3 ≤ g.toNat) (h9 : g.toNat ≤ 9) :
    (decodeOperator p (g ++ s ++ k) d).wf = true := by
  rcases operatorGroup_cases h3 h9 with rfl | rfl | rfl | rfl | rfl | rfl | rfl <;>
    cases hc : chanOf p k <;> simp [decodeOperator, hc, Instr.wf]

theorem decodeChannel_wf (p : Part) {g : BitVec 6} (k : BitVec 2) (d : Byte) (h28 : 0x28 ≤ g.toNat) (h2D : g.toNat ≤ 0x2D) :
    (decodeChannel p (g ++ k) d).wf = true := by
  rcases channelGroup_cases h28 h2D with hg | hg
  case inl => rcases hg with rfl | rfl <;> cases hs : spOf k <;> cases p <;> simp [decodeChannel, hs, Instr.wf]
  case inr => rcases hg with rfl | rfl | rfl | rfl <;> cases hc : chanOf p k <;> simp [decodeChannel, hc, Instr.wf]

theorem decodeReg_wf (p : Part) (a d : Byte) : (decodeReg (regWord p a d)).wf = true := by
  cases regAddr p a with
  | ignored h =>
    rw [decodeReg_ignored d h]
    exact h
  | global h =>
    rw [decodeReg_global d (row_of_mem_globalAddrs h)]
    exact decodeGlobal_wf d h
  | operator p s k h3 h9 =>
    rw [decodeReg_operator p s k d h3 h9]
    exact decodeOperator_wf p s k d h3 h9
  | channel p k h28 h2D =>
    rw [decodeReg_channel p k d h28 h2D]
    exact decodeChannel_wf p k d h28 h2D

/-- Settles O3: a port word by its selector, a register word by the kind of its address. -/
theorem everyWordDecodesWellFormed : Obligations.EveryWordDecodesWellFormed := by
  rintro (w | w)
  case port => exact decodePort_wf w
  case reg =>
    obtain ⟨p, a, d, rfl⟩ := exists_regWord w
    exact decodeReg_wf p a d

/-! ## Port operations -/

/-- Settles O1: the word is assembled from its selector and its byte, and there are eight selectors. -/
theorem portWordSelectsPortOperation : Obligations.PortWordSelectsPortOperation := by
  intro w
  obtain ⟨sel, v, rfl⟩ := exists_portWord w
  have hport : (portWord sel v).toNat / 256 % 4 = sel.toNat % 4 := by
    rw [portWord_toNat]
    omega
  have hbyte : BitVec.ofNat 8 (portWord sel v).toNat = v := by
    apply BitVec.eq_of_toNat_eq
    rw [BitVec.toNat_ofNat, portWord_toNat]
    omega
  have hdir : (portWord sel v).getLsbD 10 = sel.getLsbD 2 := by
    rw [portWord, BitVec.getLsbD_append]
    rfl
  rw [hport, hbyte, hdir, decodePort, portWord_selector, portWord_byte]
  have hsel : sel = 0 ∨ sel = 1 ∨ sel = 2 ∨ sel = 3 ∨ sel = 4 ∨ sel = 5 ∨ sel = 6 ∨ sel = 7 := by
    clear hport hbyte hdir
    revert sel
    decide
  rcases hsel with rfl | rfl | rfl | rfl | rfl | rfl | rfl | rfl <;> rfl

/-- Settles O5, by evaluation of the decoder. -/
theorem writtenOutWordsDecode : Obligations.WrittenOutWordsDecode := by
  unfold Obligations.WrittenOutWordsDecode
  decide

end Sys2Proof

namespace Sys2Proof.Machine

/-! ## Ignored rows -/

section
variable (p : Part) (s k : BitVec 2) (a d : Byte)

/-- The key write is ignored at the channel selects 3 and 7 (R88), the other global registers never. -/
theorem isIgnoreRow_decodeGlobal (h : a ∈ globalAddrs) : isIgnoreRow (decodeGlobal a d) = ignoredClass .part0 a d := by
  by_cases hkey : a = 0x28
  · subst hkey
    have hsel : keyChan (Field.chsel d) = none ↔ d.toNat % 4 = 3 := by
      rw [keyChan_chsel_eq_none_iff, BitVec.toNat_eq, slice_toNat]
      simp
    cases hc : keyChan (Field.chsel d) with
    | none => simp [decodeGlobal, isIgnoreRow, ignoredClass, hc, hsel.mp hc]
    | some c =>
      have hne : d.toNat % 4 ≠ 3 := fun h => nomatch hc.symm.trans (hsel.mpr h)
      simp [decodeGlobal, isIgnoreRow, ignoredClass, hc, hne]
  · simp only [globalAddrs, List.mem_cons, List.not_mem_nil, or_false, hkey, false_or] at h
    rcases h with rfl | rfl | rfl | rfl | rfl | rfl | rfl <;> rfl

/-- An operator register is ignored at the channel position 3 (R83). -/
theorem isIgnoreRow_decodeOperator {g : BitVec 4} (h3 : 3 ≤ g.toNat) (h9 : g.toNat ≤ 9) :
    isIgnoreRow (decodeOperator p (g ++ s ++ k) d) = decide (k = 3) := by
  simp only [← chanOf_eq_none_iff p k]
  rcases operatorGroup_cases h3 h9 with rfl | rfl | rfl | rfl | rfl | rfl | rfl <;>
    cases hk : chanOf p k <;> simp [decodeOperator, hk, isIgnoreRow]

theorem ignoredClass_operator {g : BitVec 4} (h3 : 3 ≤ g.toNat) (h9 : g.toNat ≤ 9) :
    ignoredClass p (g ++ s ++ k) d = decide (k = 3) := by
  have ha := operatorAddr_toNat g s k
  rw [Bool.eq_iff_iff]
  simp [ignoredClass, BitVec.toNat_eq, ha]
  omega

/-- A channel register is ignored at the channel position 3, and an override register on part 1 (R84). -/
theorem isIgnoreRow_decodeChannel {g : BitVec 6} (h28 : 0x28 ≤ g.toNat) (h2D : g.toNat ≤ 0x2D) :
    isIgnoreRow (decodeChannel p (g ++ k) d) = decide (k = 3 ∨ (p = .part1 ∧ (g = 0x2A ∨ g = 0x2B))) := by
  cases hc : chanOf p k with
  | none =>
    obtain rfl := (chanOf_eq_none_iff p k).mp hc
    rcases channelGroup_cases h28 h2D with (rfl | rfl) | (rfl | rfl | rfl | rfl) <;> cases p <;> rfl
  | some c =>
    have hk : k ≠ 3#2 := fun h => nomatch hc.symm.trans ((chanOf_eq_none_iff p k).mpr h)
    obtain ⟨o, ho⟩ := Option.ne_none_iff_exists'.mp (mt (spOf_eq_none_iff k).mp hk)
    rcases channelGroup_cases h28 h2D with hg | hg
    case inl => rcases hg with rfl | rfl <;> cases p <;> simp [decodeChannel, isIgnoreRow, ho, hk]
    case inr => rcases hg with rfl | rfl | rfl | rfl <;> simp [decodeChannel, isIgnoreRow, hc, hk]

theorem ignoredClass_channel {g : BitVec 6} (h28 : 0x28 ≤ g.toNat) (h2D : g.toNat ≤ 0x2D) :
    ignoredClass p (g ++ k) d = decide (k = 3 ∨ (p = .part1 ∧ (g = 0x2A ∨ g = 0x2B))) := by
  have ha := channelAddr_toNat g k
  rw [Bool.eq_iff_iff]
  cases p <;> simp [ignoredClass, BitVec.toNat_eq, ha] <;> omega

theorem ignoredClass_of_ignoredAddr (h : ignoredAddr p a = true) : ignoredClass p a d = true := by
  cases p <;> simp [ignoredAddr, ignoredClass] at h ⊢ <;> omega

/-- A register word decodes to a row of R301 exactly where R91 lists its class. -/
theorem isIgnoreRow_decodeReg : isIgnoreRow (decodeReg (regWord p a d)) = ignoredClass p a d := by
  cases regAddr p a with
  | ignored h => rw [decodeReg_ignored d h, ignoredClass_of_ignoredAddr p a d h, isIgnoreRow]
  | global h => rw [decodeReg_global d (row_of_mem_globalAddrs h), isIgnoreRow_decodeGlobal a d h]
  | operator p s k h3 h9 =>
    rw [decodeReg_operator p s k d h3 h9, isIgnoreRow_decodeOperator p s k d h3 h9, ignoredClass_operator p s k d h3 h9]
  | channel p k h28 h2D =>
    rw [decodeReg_channel p k d h28 h2D, isIgnoreRow_decodeChannel p k d h28 h2D, ignoredClass_channel p k d h28 h2D]

end

/-- An ignored row changes no state (46_register_interface.md R301). -/
theorem exec_of_isIgnoreRow {i : Instr} (h : isIgnoreRow i = true) (s : State) : exec i s = .next s := by
  cases i with
  | ignore | ignoreKeyChsel3 | ignoreDtMulCh3 | ignoreTlCh3 | ignoreRsArCh3 | ignoreAmD1rCh3 | ignoreD2rCh3 | ignoreD1lRrCh3
  | ignoreSsgEgCh3 | ignoreFnumLoCh3 | ignoreFnumHiBlockCh3 | ignoreCh2OpFnumLoPart1 | ignoreCh2OpFnumLoSel3
  | ignoreCh2OpFnumHiBlockPart1 | ignoreCh2OpFnumHiBlockSel3 | ignoreFbAlgCh3 | ignorePanAmsFmsCh3 => rfl
  | _ => cases h

/-- A register word of an ignored class changes no state. -/
theorem exec_decodeReg_of_ignoredClass {p : Part} {a d : Byte} (h : ignoredClass p a d = true) (s : State) :
    exec (decodeReg (regWord p a d)) s = .next s :=
  exec_of_isIgnoreRow ((isIgnoreRow_decodeReg p a d).trans h) s

/-- Settles O17: a data write is its register word in the armed state, and the word changes nothing. -/
theorem ignoredClassesChangeOnlyBusy : Obligations.IgnoredClassesChangeOnlyBusy := by
  intro v s
  refine ⟨fun h => ?part0, fun h => ?part1⟩
  case part0 => exact (exec_dw1 v s).trans (exec_decodeReg_of_ignoredClass h _)
  case part1 => exact (exec_dw3 v s).trans (exec_decodeReg_of_ignoredClass h _)

end Sys2Proof.Machine
end

section
/-! PROOFS. The opcode table (30_encoding.md R82): the row the decoder takes covers the word, and no row that covers it is more
specific. -/

namespace Sys2Proof

/-! ## Rows that cover a common word -/

/-- No row that covers the word is more specific: it has fewer mask bits, or as many and the same rule. -/
def Row.MostSpecific (r : Row) (w : BitVec 17) : Prop :=
  ∀ r' ∈ regTable, r'.covers w = true → r'.width < r.width ∨ (r'.width = r.width ∧ r'.rule = r.rule)

/-- What R82 asks of the instruction a word decodes to: a row of the table covers the word, has the instruction's mnemonic, and is
the most specific. -/
def TakesRow (w : BitVec 17) (i : Instr) : Prop :=
  ∃ r ∈ regTable, r.covers w = true ∧ r.mnemonic = i.mnemonic ∧ r.MostSpecific w

/-- The rows agree on the bits that both their masks keep. -/
def Row.overlaps (r r' : Row) : Bool := r.matchBits &&& r'.mask == r'.matchBits &&& r.mask

theorem Row.covers_iff (r : Row) (w : BitVec 17) : r.covers w = true ↔ w &&& r.mask = r.matchBits := beq_iff_eq

theorem Row.overlaps_of_covers {r r' : Row} {w : BitVec 17} (h : r.covers w = true) (h' : r'.covers w = true) :
    r.overlaps r' = true := by
  rw [Row.covers_iff] at h h'
  rw [Row.overlaps, beq_iff_eq, ← h, ← h', BitVec.and_assoc, BitVec.and_assoc, BitVec.and_comm r.mask]

/-- A covered word agrees with the row on every slice of the mask. -/
theorem Row.slice_of_covers {r : Row} {w : BitVec 17} (h : r.covers w = true) (lo len : Nat) :
    w.extractLsb' lo len &&& r.mask.extractLsb' lo len = r.matchBits.extractLsb' lo len := by
  rw [← BitVec.extractLsb'_and, (r.covers_iff w).mp h]

theorem Row.slice_eq_of_covers {r : Row} {w : BitVec 17} (h : r.covers w = true) {lo len : Nat}
    (hm : r.mask.extractLsb' lo len = .allOnes len) : w.extractLsb' lo len = r.matchBits.extractLsb' lo len := by
  rw [← Row.slice_of_covers h, hm, BitVec.and_allOnes]

/-- A selector of two bits that a row has as 3 is 3 in every word the row covers. -/
theorem Row.sel_of_covers {r : Row} {w : BitVec 17} (h : r.covers w = true) {lo : Nat} (hr : r.matchBits.extractLsb' lo 2 = 3) :
    w.extractLsb' lo 2 = 3 := by
  have h3 : ∀ x y : BitVec 2, x &&& y = 3 → x = 3 := by decide
  exact h3 _ _ ((Row.slice_of_covers h lo 2).trans hr)

/-! ## Facts of the table -/

/-- Of two rows that overlap, the second is no more specific, unless the first is `IGNORE` or the second asks for a selector 3
that the first leaves free: in the address, or in the data of a key write. -/
theorem regTable_overlaps : ∀ r ∈ regTable, ∀ r' ∈ regTable, r.overlaps r' = true →
    (r'.width < r.width ∨ (r'.width = r.width ∧ r'.rule = r.rule)) ∨ r.mask = 0 ∨
    (partOf (r.matchBits.getLsbD 16) = .part0 ∧ r.mask.extractLsb' 8 2 = 0 ∧ r'.matchBits.extractLsb' 8 2 = 3) ∨
    (r.matchBits = regWord .part0 0x28 0 ∧ r'.matchBits.extractLsb' 0 2 = 3) := by
  decide

/-- A row other than `IGNORE` fixes a group of operator or channel registers, or the address of a global register. -/
theorem regTable_addr : ∀ r ∈ regTable, r.mask = 0 ∨
    (r.mask.extractLsb' 12 4 = .allOnes 4 ∧
      3 ≤ (r.matchBits.extractLsb' 12 4).toNat ∧ (r.matchBits.extractLsb' 12 4).toNat ≤ 9) ∨
    (r.mask.extractLsb' 10 6 = .allOnes 6 ∧
      0x28 ≤ (r.matchBits.extractLsb' 10 6).toNat ∧ (r.matchBits.extractLsb' 10 6).toNat ≤ 0x2D) ∨
    (r.mask.extractLsb' 8 9 = .allOnes 9 ∧ ∃ a ∈ globalAddrs, r.matchBits.extractLsb' 8 9 = partBit .part0 ++ a) := by
  decide

/-- A row without mask bits is as specific as `IGNORE` and has its rule. -/
theorem regTable_of_mask_eq_zero : ∀ r ∈ regTable, r.mask = 0 → r.width = 0 ∧ r.rule = 301 := by
  decide

/-! ## The row of an ignored address -/

theorem not_ignoredAddr_voice (p : Part) {a : Byte} (h30 : 0x30 ≤ a.toNat) (hB8 : a.toNat < 0xB8) :
    ignoredAddr p a = false := by
  simp [ignoredAddr]
  omega

theorem not_ignoredAddr_global : ∀ a ∈ globalAddrs, ignoredAddr .part0 a = false := by
  decide

/-- No row but `IGNORE` covers a word with an ignored address. -/
theorem mask_eq_zero_of_covers_ignored {r : Row} (hr : r ∈ regTable) {p : Part} {a d : Byte} (ha : ignoredAddr p a = true)
    (h : r.covers (regWord p a d) = true) : r.mask = 0 := by
  rcases regTable_addr r hr with h0 | ⟨hm, hlo, hhi⟩ | ⟨hm, hlo, hhi⟩ | ⟨hm, a', ha', hmatch⟩
  · exact h0
  · rw [← Row.slice_eq_of_covers h hm, slice_toNat, regWord_toNat] at hlo hhi
    exact nomatch ha.symm.trans (not_ignoredAddr_voice p (by omega) (by omega))
  · rw [← Row.slice_eq_of_covers h hm, slice_toNat, regWord_toNat] at hlo hhi
    exact nomatch ha.symm.trans (not_ignoredAddr_voice p (by omega) (by omega))
  · have haddr : partBit p ++ a = partBit .part0 ++ a' :=
      (slice_append_high (partBit p ++ a) d).symm.trans ((Row.slice_eq_of_covers h hm).trans hmatch)
    obtain rfl : a = a' := by
      rw [← slice_append_low (partBit p) a, haddr, slice_append_low]
    cases p with
    | part0 => exact nomatch ha.symm.trans (not_ignoredAddr_global a ha')
    | part1 => exact absurd ((BitVec.append_left_inj a).mp haddr) (by decide)

theorem takesRow_ignored {p : Part} {a : Byte} (d : Byte) (h : ignoredAddr p a = true) :
    TakesRow (regWord p a d) (.ignore p a d) := by
  refine ⟨⟨"IGNORE", 0x0, 0x0, 301⟩, .head _, by simp [Row.covers], rfl, fun r' hr' hc => .inr ?_⟩
  exact regTable_of_mask_eq_zero r' hr' (mask_eq_zero_of_covers_ignored hr' h hc)

/-! ## The rows of the other kinds -/

theorem regWord_and {p p' px : Part} (hp : partBit p &&& partBit p' = partBit px) (a d a' d' : Byte) :
    regWord p a d &&& regWord p' a' d' = regWord px (a &&& a') (d &&& d') := by
  rw [regWord, regWord, regWord, BitVec.and_append, BitVec.and_append, hp]

theorem regWord_chan (p : Part) (a d : Byte) : (regWord p a d).extractLsb' 8 2 = Field.chan a := by
  apply BitVec.eq_of_toNat_eq
  rw [Field.chan, slice_toNat, slice_toNat, regWord_toNat]
  omega

theorem regWord_dataSel (p : Part) (a d : Byte) : (regWord p a d).extractLsb' 0 2 = d.extractLsb' 0 2 := by
  apply BitVec.eq_of_toNat_eq
  rw [slice_toNat, slice_toNat, regWord_toNat]
  omega

/-- A row that covers the word is the most specific, if it leaves free no selector that is 3 in the word. -/
theorem takesRow_of_row {p pm px : Part} {a am ax d dm dx : Byte} {i : Instr}
    (hrow : ∃ r ∈ regTable, r.mask = regWord pm am dm ∧ r.matchBits = regWord px ax dx ∧ r.mnemonic = i.mnemonic)
    (hp : partBit p &&& partBit pm = partBit px) (ha : a &&& am = ax) (hd : d &&& dm = dx) (h0 : am ≠ 0)
    (hchan : px = .part0 → Field.chan am = 0 → Field.chan a ≠ 3) (hkey : ax = 0x28 → dx = 0 → d.extractLsb' 0 2 ≠ 3) :
    TakesRow (regWord p a d) i := by
  obtain ⟨r, hr, hmask, hmatch, hmn⟩ := hrow
  have hc : r.covers (regWord p a d) = true := (r.covers_iff _).mpr (by rw [hmask, hmatch, regWord_and hp, ha, hd])
  refine ⟨r, hr, hc, hmn, fun r' hr' hc' => ?_⟩
  rcases regTable_overlaps r hr r' hr' (Row.overlaps_of_covers hc hc') with h | h | ⟨hpart, hm, hx⟩ | ⟨hm, hx⟩
  · exact h
  · refine absurd ?_ h0
    rw [← regWord_addr pm am dm, ← hmask, h]
    rfl
  · refine absurd ?_ (hchan ?_ ?_)
    · rw [← regWord_chan p a d, Row.sel_of_covers hc' hx]
    · rw [← hpart, hmatch, regWord_part]
    · rw [← regWord_chan pm am dm, ← hmask, hm]
  · refine absurd ?_ (hkey ?_ ?_)
    · rw [← regWord_dataSel p a d, Row.sel_of_covers hc' hx]
    · rw [← regWord_addr px ax dx, ← hmatch, hm, regWord_addr]
    · rw [← regWord_data px ax dx, ← hmatch, hm, regWord_data]

/-! ## The row of each kind of address -/

/-- What a row's mask keeps of a selector: the selector 3 has rows of its own. -/
def selMask (k : BitVec 2) : BitVec 2 := if k = 3 then 3 else 0

theorem and_selMask (k : BitVec 2) : k &&& selMask k = selMask k := by
  revert k
  decide

theorem ne_three_of_selMask_eq_zero {k : BitVec 2} (h : selMask k = 0) : k ≠ 3 := by
  revert k
  decide

/-- Neither the slot nor the data chooses the row of an operator word. -/
theorem decodeOperator_mnemonic (p : Part) {g : BitVec 4} (s s' k : BitVec 2) (d d' : Byte) (h3 : 3 ≤ g.toNat)
    (h9 : g.toNat ≤ 9) : (decodeOperator p (g ++ s ++ k) d).mnemonic = (decodeOperator p (g ++ s' ++ k) d').mnemonic := by
  rcases operatorGroup_cases h3 h9 with rfl | rfl | rfl | rfl | rfl | rfl | rfl <;>
    cases hc : chanOf p k <;> simp [decodeOperator, hc, Instr.mnemonic]

theorem operator_row : ∀ (p : Part) (g : BitVec 4) (k : BitVec 2), 3 ≤ g.toNat → g.toNat ≤ 9 →
    ∃ r ∈ regTable, r.mask = regWord .part0 (BitVec.allOnes 4 ++ 0#2 ++ selMask k) 0#8 ∧
      r.matchBits = regWord .part0 (g ++ 0#2 ++ selMask k) 0#8 ∧
      r.mnemonic = (decodeOperator p (g ++ 0#2 ++ k) 0).mnemonic := by
  rintro (_ | _) <;> decide

theorem takesRow_operator (p : Part) {g : BitVec 4} (s k : BitVec 2) (d : Byte) (h3 : 3 ≤ g.toNat) (h9 : g.toNat ≤ 9) :
    TakesRow (regWord p (g ++ s ++ k) d) (decodeOperator p (g ++ s ++ k) d) := by
  have hrow := operator_row p g k h3 h9
  rw [decodeOperator_mnemonic p 0#2 s k 0 d h3 h9] at hrow
  refine takesRow_of_row hrow (by cases p <;> rfl) ?addr BitVec.and_zero ?mask ?chan ?key
  case addr => rw [BitVec.and_append, BitVec.and_append, BitVec.and_allOnes, BitVec.and_zero, and_selMask]
  case mask =>
    clear hrow
    revert k
    decide
  case chan =>
    intro _ hm
    rw [Field.chan_operatorAddr] at hm ⊢
    exact ne_three_of_selMask_eq_zero hm
  case key =>
    intro h
    have hg : 0x28 = g.toNat * 16 + 0 * 4 + (selMask k).toNat :=
      (congrArg BitVec.toNat h).symm.trans (operatorAddr_toNat g 0#2 (selMask k))
    omega

/-- The data do not choose the row of a channel word. -/
theorem decodeChannel_mnemonic (p : Part) {g : BitVec 6} (k : BitVec 2) (d : Byte) (h28 : 0x28 ≤ g.toNat)
    (h2D : g.toNat ≤ 0x2D) : (decodeChannel p (g ++ k) d).mnemonic = (decodeChannel p (g ++ k) 0).mnemonic := by
  rcases channelGroup_cases h28 h2D with hg | hg
  case inl => rcases hg with rfl | rfl <;> cases hs : spOf k <;> cases p <;> simp [decodeChannel, hs, Instr.mnemonic]
  case inr => rcases hg with rfl | rfl | rfl | rfl <;> cases hc : chanOf p k <;> simp [decodeChannel, hc, Instr.mnemonic]

/-- A row of the table for a group of channel registers, its mask keeping the bits `m` of the selector. -/
theorem takesRow_channel_of_row {p pm px : Part} {g : BitVec 6} {k m : BitVec 2} (d : Byte) (h28 : 0x28 ≤ g.toNat)
    (h2D : g.toNat ≤ 0x2D)
    (hrow : ∃ r ∈ regTable, r.mask = regWord pm (BitVec.allOnes 6 ++ m) 0#8 ∧ r.matchBits = regWord px (g ++ m) 0#8 ∧
      r.mnemonic = (decodeChannel p (g ++ k) 0).mnemonic)
    (hp : partBit p &&& partBit pm = partBit px) (hm : k &&& m = m) (hk : px = .part0 → m = 0 → k ≠ 3) :
    TakesRow (regWord p (g ++ k) d) (decodeChannel p (g ++ k) d) := by
  rw [← decodeChannel_mnemonic p k d h28 h2D] at hrow
  refine takesRow_of_row hrow hp ?addr BitVec.and_zero ?mask ?chan ?key
  case addr => rw [BitVec.and_append, BitVec.and_allOnes, hm]
  case mask =>
    clear hrow hm hk
    revert m
    decide
  case chan =>
    rw [Field.chan_channelAddr, Field.chan_channelAddr]
    exact hk
  case key =>
    intro h
    have hg : 0x28 = g.toNat * 4 + m.toNat := (congrArg BitVec.toNat h).symm.trans (channelAddr_toNat g m)
    omega

theorem channel_row : ∀ (p : Part) (g : BitVec 6) (k : BitVec 2), g = 0x28 ∨ g = 0x29 ∨ g = 0x2C ∨ g = 0x2D →
    ∃ r ∈ regTable, r.mask = regWord .part0 (BitVec.allOnes 6 ++ selMask k) 0#8 ∧
      r.matchBits = regWord .part0 (g ++ selMask k) 0#8 ∧ r.mnemonic = (decodeChannel p (g ++ k) 0).mnemonic := by
  rintro (_ | _) <;> decide

/-- An override register of channel 2: on part 0 its rows are as a channel register's, but for the part bit in the mask. -/
theorem override_row_part0 : ∀ (g : BitVec 6) (k : BitVec 2), g = 0x2A ∨ g = 0x2B →
    ∃ r ∈ regTable, r.mask = regWord .part1 (BitVec.allOnes 6 ++ selMask k) 0#8 ∧
      r.matchBits = regWord .part0 (g ++ selMask k) 0#8 ∧ r.mnemonic = (decodeChannel .part0 (g ++ k) 0).mnemonic := by
  decide

/-- On part 1 the override registers have one row each, whatever the selector is. -/
theorem override_row_part1 : ∀ (g : BitVec 6) (k : BitVec 2), g = 0x2A ∨ g = 0x2B →
    ∃ r ∈ regTable, r.mask = regWord .part1 (BitVec.allOnes 6 ++ 0#2) 0#8 ∧ r.matchBits = regWord .part1 (g ++ 0#2) 0#8 ∧
      r.mnemonic = (decodeChannel .part1 (g ++ k) 0).mnemonic := by
  decide

theorem takesRow_channel (p : Part) {g : BitVec 6} (k : BitVec 2) (d : Byte) (h28 : 0x28 ≤ g.toNat) (h2D : g.toNat ≤ 0x2D) :
    TakesRow (regWord p (g ++ k) d) (decodeChannel p (g ++ k) d) := by
  have hfree (_ : Part.part0 = .part0) (hm : selMask k = 0) : k ≠ 3 := ne_three_of_selMask_eq_zero hm
  rcases channelGroup_cases h28 h2D with hg | hg
  · cases p with
    | part0 => exact takesRow_channel_of_row d h28 h2D (override_row_part0 g k hg) rfl (and_selMask k) hfree
    | part1 => exact takesRow_channel_of_row d h28 h2D (override_row_part1 g k hg) rfl BitVec.and_zero nofun
  · exact takesRow_channel_of_row d h28 h2D (channel_row p g k hg) (by cases p <;> rfl) (and_selMask k) hfree

/-- The data do not choose the row of a global word, but for the key write. -/
theorem decodeGlobal_mnemonic {a : Byte} (d : Byte) (hkey : a ≠ 0x28) :
    (decodeGlobal a d).mnemonic = (decodeGlobal a 0).mnemonic := by
  unfold decodeGlobal
  split
  case h_6 h28 => exact absurd (BitVec.eq_of_toNat_eq h28) hkey
  all_goals simp_all [Instr.mnemonic]

theorem global_row : ∀ a ∈ globalAddrs, a ≠ 0x28 →
    ∃ r ∈ regTable, r.mask = regWord .part1 (BitVec.allOnes 8) 0#8 ∧ r.matchBits = regWord .part0 a 0#8 ∧
      r.mnemonic = (decodeGlobal a 0).mnemonic := by
  decide

theorem key_row (d : Byte) :
    ∃ r ∈ regTable, r.mask = regWord .part1 (BitVec.allOnes 8) (0#6 ++ selMask (d.extractLsb' 0 2)) ∧
      r.matchBits = regWord .part0 0x28 (0#6 ++ selMask (d.extractLsb' 0 2)) ∧ r.mnemonic = (decodeGlobal 0x28 d).mnemonic := by
  have hsel := keyChan_chsel_eq_none_iff d
  cases hc : keyChan (Field.chsel d) with
  | none =>
    rw [hsel.mp hc]
    have hmn : (decodeGlobal 0x28 d).mnemonic = "IGNORE_KEY_CHSEL3" := by simp [decodeGlobal, hc, Instr.mnemonic]
    rw [hmn]
    decide
  | some c =>
    rw [selMask, if_neg fun h => nomatch hc.symm.trans (hsel.mpr h)]
    have hmn : (decodeGlobal 0x28 d).mnemonic = "KEY_ON_OFF" := by simp [decodeGlobal, hc, Instr.mnemonic]
    rw [hmn]
    decide

theorem takesRow_global {a : Byte} (d : Byte) (h : a ∈ globalAddrs) : TakesRow (regWord .part0 a d) (decodeGlobal a d) := by
  by_cases hkey : a = 0x28
  · subst hkey
    refine takesRow_of_row (key_row d) rfl BitVec.and_allOnes ?data (by decide) (fun _ => nofun) ?key
    case data =>
      revert d
      decide
    case key =>
      intro _ hm
      apply ne_three_of_selMask_eq_zero
      rw [← slice_append_low 0#6 (selMask (d.extractLsb' 0 2)), hm]
      rfl
  · have hrow := global_row a h hkey
    rw [← decodeGlobal_mnemonic d hkey] at hrow
    exact takesRow_of_row hrow rfl BitVec.and_allOnes BitVec.and_zero (by decide) (fun _ => nofun) (fun h28 => absurd h28 hkey)

/-- Settles O2: the row by the kind of the address. -/
theorem decoderTakesMostSpecificRow : Obligations.DecoderTakesMostSpecificRow := by
  intro w
  obtain ⟨p, a, d, rfl⟩ := exists_regWord w
  change TakesRow _ _
  cases regAddr p a with
  | ignored h => exact decodeReg_ignored d h ▸ takesRow_ignored d h
  | global h => exact decodeReg_global d (row_of_mem_globalAddrs h) ▸ takesRow_global d h
  | operator p s k h3 h9 => exact decodeReg_operator p s k d h3 h9 ▸ takesRow_operator p s k d h3 h9
  | channel p k h28 h2D => exact decodeReg_channel p k d h28 h2D ▸ takesRow_channel p k d h28 h2D

end Sys2Proof
end

section
/-! PROOFS. Who writes a phase (40_phase_generator.md R127, R128; 41_envelope_generator.md R152): a key-on sets it to 0, a tick
advances it, and nothing else does either. -/

namespace Sys2Proof.Machine

/-! ## An operator's phase -/

section
variable (x : Operator) (kc : BitVec 5) (cnt : BitVec 12) (key : Bool)

@[simp] theorem keyOn_phase : (x.keyOn kc).phase = 0 := by rw [keyOn_eq]
@[simp] theorem keyOff_phase : x.keyOff.phase = x.phase := by rw [keyOff_onlyEnvelope]
@[simp] theorem egStep_phase : (x.egStep kc cnt).phase = x.phase := by rw [egStep_onlyEnvelope]

/-- From `x` to `y` the phase is set to 0 exactly where the key latch rises (R128), and kept everywhere else. -/
def Operator.PhaseKeyed (x y : Operator) : Prop :=
  y.phase = if x.keyLatch = false ∧ y.keyLatch = true then 0 else x.phase

/-- What keeps both key latch and phase keys nothing on. -/
theorem phaseKeyed_of_keyLatch_eq {x y : Operator} (hlatch : y.keyLatch = x.keyLatch) (hphase : y.phase = x.phase) :
    x.PhaseKeyed y := by
  unfold Operator.PhaseKeyed
  rw [hlatch, if_neg fun ⟨hlow, hhigh⟩ => nomatch hlow.symm.trans hhigh]
  exact hphase

/-- A key write keys on exactly where it raises the latch (46_register_interface.md R283). -/
theorem keyWrite_phaseKeyed : x.PhaseKeyed (x.keyWrite key kc) := by
  unfold Operator.keyWrite
  split
  case h_1 hlatch | h_2 hlatch => simp [Operator.PhaseKeyed, hlatch]
  case h_3 => exact phaseKeyed_of_keyLatch_eq rfl rfl

end

/-! ## Ticks -/

section
variable (s : Chip)

/-- A timer step resets the phases that its CSM trigger keys on (45_timers_csm.md R257). -/
theorem timerStep_phase (c : ChIx) (o : OpIx) :
    (s.timerStep.op c o).phase =
      if c = .ch2 ∧ s.timerA.overflows = true ∧ s.ch3Mode = .csm then 0 else (s.op c o).phase := by
  have hrelease : (s.csmRelease.op c o).phase = (s.op c o).phase := by
    rw [csmRelease_op]
    split
    · exact keyOff_phase _
    · rfl
  rw [timerStep_op, ← hrelease]
  split
  · exact keyOn_phase _ _
  · rfl

/-- The envelope leaves the phases to the timers. -/
theorem beforeChannels_phase (c : ChIx) (o : OpIx) : (s.beforeChannels.op c o).phase = (s.timerStep.op c o).phase := by
  rw [beforeChannels_op]
  split
  · exact egStep_phase _ _ _
  · rfl

/-- A tick advances the phase by the increment of the state the channels see (R127). -/
theorem nativeTick_phase (c : ChIx) (o : OpIx) :
    (s.nativeTick.1.op c o).phase = (s.beforeChannels.op c o).phase + s.beforeChannels.increment c o := by
  rw [nativeTick_op]
  rfl

end

/-! ## Instructions -/

variable {i : Instr} {s t : State}

/-- A register word moves a phase by its key write alone. -/
theorem exec_regWord_phaseKeyed (hi : i.kind ≠ .port) (h : exec i s = .next t) (c : ChIx) (o : OpIx) :
    (s.chip.op c o).PhaseKeyed (t.chip.op c o) := by
  rcases exec_regWord_op hi h c o with hreg | ⟨keys, -, hkey⟩
  · exact phaseKeyed_of_keyLatch_eq (by rw [hreg]) (by rw [hreg])
  · rw [hkey]
    exact keyWrite_phaseKeyed _ _ _

/-- An instruction moves a phase by a key write alone, be it a word or a data write on a port. -/
theorem exec_phaseKeyed (h : exec i s = .next t) (c : ChIx) (o : OpIx) : (s.chip.op c o).PhaseKeyed (t.chip.op c o) := by
  cases i with
  | aw0 | aw2 | rd0 | rd1 | rd2 | rd3 =>
    cases h
    exact phaseKeyed_of_keyLatch_eq rfl rfl
  | dw1 v => exact exec_regWord_phaseKeyed (s := s.onChip _) (decodeReg_kind_ne_port _ _ _) (exec_dw1 v s ▸ h) c o
  | dw3 v => exact exec_regWord_phaseKeyed (s := s.onChip _) (decodeReg_kind_ne_port _ _ _) (exec_dw3 v s ▸ h) c o
  | _ => exact exec_regWord_phaseKeyed (by simp [Instr.kind]) h c o

/-- Settles O33: ticks through the timers and the envelope to the channels, instructions by `exec_phaseKeyed`. -/
theorem phaseWrittenOnlyByTickAndKeyOn : Obligations.PhaseWrittenOnlyByTickAndKeyOn := by
  refine ⟨fun s c o => ?tick, fun i s t c o h => exec_phaseKeyed h c o⟩
  case tick => rw [nativeTick_phase, beforeChannels_phase, timerStep_phase]

end Sys2Proof.Machine
end

section
/-! PROOFS. The phase generator's functions (40_phase_generator.md R120..R125, R129): frequency source, key code, detune and
increment, each by the value it has. -/

namespace Sys2Proof.Machine

/-! ## Frequency source (R120) -/

section
variable {s : Chip} {c : ChIx} {o : OpIx}

/-- Outside Normal mode an operator of channel 2 that has an override frequency uses it. -/
theorem fSrc_override {i : SpIx} (hm : s.ch3Mode ≠ .normal) (hi : spIx o = some i) : s.fSrc .ch2 o = s.spFreq i := by
  unfold Chip.fSrc
  cases hmode : s.ch3Mode with
  | normal => exact absurd hmode hm
  | special | csm => rw [hi]

/-- An operator no override frequency applies to uses its channel's. -/
theorem fSrc_channel (h : c = .ch2 → s.ch3Mode ≠ .normal → spIx o = none) : s.fSrc c o = s.chanFreq c := by
  unfold Chip.fSrc
  split
  case h_1 hmode hi | h_2 hmode hi => exact nomatch hi.symm.trans (h rfl (by rw [hmode]; nofun))
  case h_3 => rfl

end

/-- Settles O43: operators 1 to 3 of channel 2 outside Normal mode by their override, every other by its channel; key code and
increment are defined from the source. -/
theorem effectiveFrequencySource : Obligations.EffectiveFrequencySource := by
  refine fun s c o => ⟨?source, rfl, rfl⟩
  case source =>
    by_cases hov : c = .ch2 ∧ s.ch3Mode ≠ .normal
    · obtain ⟨rfl, hm⟩ := hov
      simp only [hm, ne_eq, not_false_eq_true, true_and]
      cases o with
      | op1 => exact fSrc_override (i := .op1) hm rfl
      | op2 => exact fSrc_override (i := .op2) hm rfl
      | op3 => exact fSrc_override (i := .op3) hm rfl
      | op4 => exact fSrc_channel fun _ _ => rfl
    · simp only [← and_assoc, hov, false_and, if_false]
      exact fSrc_channel fun hc hm => absurd ⟨hc, hm⟩ hov

/-! ## Key code (R121, R122) -/

/-- The two low bits of a key code, as R121 makes them of `f[10:7]`. -/
def keyCodeLow (n : BitVec 4) : BitVec 2 :=
  BitVec.ofBool (n.getLsbD 3) ++
    BitVec.ofBool ((n.getLsbD 3 && (n.getLsbD 2 || n.getLsbD 1 || n.getLsbD 0)) ||
      (!n.getLsbD 3 && n.getLsbD 2 && n.getLsbD 1 && n.getLsbD 0))

/-- Above the low bits stands the block. -/
theorem keyCodeOf_eq (q : Freq) : keyCodeOf q = q.block ++ keyCodeLow (q.fnum.extractLsb' 7 4) := by
  simp only [keyCodeLow, BitVec.getLsbD_extractLsb']
  exact BitVec.append_assoc

/-- The list of R122. -/
theorem keyCodeLow_toNat : ∀ n : BitVec 4,
    (keyCodeLow n).toNat = [0, 0, 0, 0, 0, 0, 0, 1, 2, 3, 3, 3, 3, 3, 3, 3].getD n.toNat 0 := by
  decide

/-- Settles O41: the block by `keyCodeOf_eq`, the low bits by the list over the sixteen values of `f[10:7]`. -/
theorem keyCodeLowBits : Obligations.KeyCodeLowBits := by
  intro q
  have hslice : (q.fnum.extractLsb' 7 4).toNat = q.fnum.toNat / 128 := by
    rw [slice_toNat]
    have := q.fnum.isLt
    omega
  rw [keyCodeOf_eq, append_toNat, keyCodeLow_toNat, hslice]
  omega

/-! ## Detune (R123, R124) -/

/-- Settles O42: the table is the formula at each of its 128 places. -/
theorem detuneTableFollowsItsFormula : Obligations.DetuneTableFollowsItsFormula := by
  unfold Obligations.DetuneTableFollowsItsFormula
  decide

/-- No entry of the detune table exceeds its last. -/
theorem detuneDelta_le : ∀ (m : BitVec 2) (kc : BitVec 5), detuneDelta m kc ≤ 22 := by decide

theorem detuneDelta_zero : ∀ kc : BitVec 5, detuneDelta 0#2 kc = 0 := by decide

/-- Detune is sign and magnitude: bit 2 is the sign (R89), the low bits the magnitude. -/
theorem detune_fields : ∀ dt : BitVec 3,
    dt.getLsbD 2 = decide (4 ≤ dt.toNat) ∧ dt.extractLsb' 0 2 = BitVec.ofNat 2 (dt.toNat % 4) := by
  decide

theorem detuneApply_toNat (x : BitVec 17) (dt : BitVec 3) (kc : BitVec 5) :
    (detuneApply x dt kc).toNat =
      let d := detuneDelta (BitVec.ofNat 2 (dt.toNat % 4)) kc
      if dt.toNat < 4 then (x.toNat + d) % 2 ^ 17 else (x.toNat + 2 ^ 17 - d) % 2 ^ 17 := by
  obtain ⟨hsign, hmag⟩ := detune_fields dt
  have hd := detuneDelta_le (BitVec.ofNat 2 (dt.toNat % 4)) kc
  unfold detuneApply
  simp only [hsign, hmag, decide_eq_true_eq]
  split
  case isTrue hneg =>
    rw [if_neg (by omega), BitVec.toNat_sub, BitVec.toNat_ofNat]
    omega
  case isFalse hpos =>
    rw [if_pos (by omega), BitVec.toNat_add, BitVec.toNat_ofNat]
    omega

/-- A detune of magnitude 0 changes nothing, whatever its sign. -/
theorem detuneApply_of_magnitude_zero (x : BitVec 17) {dt : BitVec 3} (kc : BitVec 5) (h : dt.toNat % 4 = 0) :
    detuneApply x dt kc = x := by
  apply BitVec.eq_of_toNat_eq
  have := x.isLt
  simp only [detuneApply_toNat, h, detuneDelta_zero]
  split <;> omega

/-! ## Increment (R125, R129) -/

theorem incBase_toNat (q : Freq) (delta : Int) :
    (incBase q delta).toNat = ((q.fnum.toNat * 2 + delta) % 4096).toNat * 2 ^ q.block.toNat / 4 % 2 ^ 17 := by
  unfold incBase
  rw [BitVec.toNat_ofNat, BitVec.toNat_ofInt, Nat.shiftLeft_eq, Nat.shiftRight_eq_div_pow]
  rfl

/-- Without modulation nothing wraps: the base is the F-number shifted by the block and halved (R129). -/
theorem incBase_unmodulated_toNat (q : Freq) : (incBase q 0).toNat = q.fnum.toNat * 2 ^ q.block.toNat / 2 := by
  have hfm : (((q.fnum.toNat : Int) * 2 + 0) % 4096).toNat = q.fnum.toNat * 2 := by
    have := q.fnum.isLt
    omega
  have hshift : q.fnum.toNat * 2 ^ q.block.toNat ≤ 2047 * 2 ^ 7 :=
    Nat.mul_le_mul (by have := q.fnum.isLt; omega) (Nat.pow_le_pow_right (by omega) (by have := q.block.isLt; omega))
  rw [incBase_toNat, hfm, Nat.mul_right_comm]
  omega

theorem incrementOf_toNat (q : Freq) (delta : Int) (dt : BitVec 3) (mul : BitVec 4) :
    (incrementOf q delta dt mul).toNat =
      let base := (detuneApply (incBase q delta) dt (keyCodeOf q)).toNat
      (if mul.toNat = 0 then base / 2 else base * mul.toNat) % 2 ^ 20 := by
  have hmul : mul = 0 ↔ mul.toNat = 0 := BitVec.toNat_inj.symm
  unfold incrementOf
  simp only [hmul]
  split
  · rw [BitVec.toNat_ofNat, Nat.shiftRight_eq_div_pow]
  · rw [BitVec.toNat_ofNat]

/-- Settles O44: base, detune and multiplier by the value of each; R129's form by the two facts that nothing is left of detune and
modulation. -/
theorem incrementFollowsItsFormula : Obligations.IncrementFollowsItsFormula := by
  refine ⟨fun s c o => rfl, fun q delta dt mul => ?formula, fun q dt mul hdt => ?unmodulated⟩
  case formula => rw [incrementOf_toNat, detuneApply_toNat, incBase_toNat]
  case unmodulated => rw [incrementOf_toNat, detuneApply_of_magnitude_zero _ _ hdt, incBase_unmodulated_toNat]

end Sys2Proof.Machine
end

section
/-! PROOFS. The envelope generator (41_envelope_generator.md R140..R153): what each operation leaves, each by the value it has. -/

namespace Sys2Proof.Machine

/-! ## Rates and increments (R141..R145) -/

theorem effRate_eq (r5 : Nat) (kc : BitVec 5) (rs : BitVec 2) :
    effRate r5 kc rs = if r5 = 0 then 0 else min (2 * r5 + kc.toNat / 2 ^ (3 - rs.toNat)) 63 := by
  rw [effRate, Nat.shiftRight_eq_div_pow]

/-- Below rate 48 the counter's low bits gate the pattern and its next three select the entry (R143). -/
theorem egInc_eq (rate : Nat) (cnt : BitVec 12) :
    egInc rate cnt =
      if rate < 4 then 0
      else if rate < 48 then
        let gate := 2 ^ (11 - rate / 4)
        if cnt.toNat % gate = 0 then (patLo.getD (rate % 4) []).getD (cnt.toNat / gate % 8) 0 else 0
      else (patHi.getD (rate - 48) []).getD (cnt.toNat % 8) 0 := by
  simp only [egInc, Nat.shiftRight_eq_div_pow, ite_not]

theorem sustainLevel_eq (d1l : BitVec 4) : sustainLevel d1l = if d1l.toNat = 15 then 992 else 32 * d1l.toNat := by
  have hlast : d1l = 15 ↔ d1l.toNat = 15 := BitVec.toNat_inj.symm
  simp only [sustainLevel, hlast, Nat.shiftLeft_eq, Nat.mul_comm]

section
variable {x : Operator} {st : EgState} {kc : BitVec 5} {cnt : BitVec 12}

@[simp] theorem instantAttack_iff : x.instantAttack kc = true ↔ 62 ≤ x.effRate .attack kc := decide_eq_true_iff

/-- Register rate 0 is frozen whatever the key code (R142). -/
theorem effRate_of_rate5_eq_zero (h : x.rate5 st = 0) : x.effRate st kc = 0 := if_pos h

/-- A frozen rate never fires (R143). -/
@[simp] theorem egInc_zero (cnt : BitVec 12) : egInc 0 cnt = 0 := rfl

/-! ## Level arithmetic (R146..R149) -/

variable {inc : Nat}

theorem raiseLevel_toNat (level : BitVec 10) (inc : Nat) : (raiseLevel level inc).toNat = min (level.toNat + inc) 0x3FF := by
  rw [raiseLevel, BitVec.toNat_ofNat]
  omega

/-- An increment of 0 raises nothing. -/
@[simp] theorem raised_zero : x.raised 0 = x.level := by simp [Operator.raised]

/-- With SSG-EG the level rises fourfold and from below 0x200 only; it saturates in either case (R147). -/
theorem raised_toNat :
    (x.raised inc).toNat =
      if x.ssgOn = true then (if x.level.toNat < 0x200 then min (x.level.toNat + 4 * inc) 0x3FF else x.level.toNat)
      else min (x.level.toNat + inc) 0x3FF := by
  by_cases hinc : inc = 0
  · have hmax : min x.level.toNat 0x3FF = x.level.toNat := by
      have := x.level.isLt
      omega
    simp only [hinc, raised_zero, Nat.mul_zero, Nat.add_zero, hmax, ite_self]
  · simp only [Operator.raised, ne_eq, hinc, not_false_eq_true, and_true, if_true, apply_ite BitVec.toNat, raiseLevel_toNat]

theorem attackLevel_eq (level : BitVec 10) (inc : Nat) :
    attackLevel level inc = level.toNat + -(level.toNat + 1 : Int) * inc / 16 := by
  rw [attackLevel, asr_eq_div, neg_add']
  rfl

@[simp] theorem attackLevel_zero (level : BitVec 10) : attackLevel level 0 = level.toNat := by simp [attackLevel_eq]

/-- The attack curve stays within the level's ten bits unless a firing increment ends the attack. -/
theorem attackLevel_toNat {level : BitVec 10} (h : ¬(inc ≠ 0 ∧ attackLevel level inc ≤ 0)) :
    (BitVec.ofInt 10 (attackLevel level inc)).toNat = attackLevel level inc := by
  have hle := attackLevel_le level inc
  have := level.isLt
  have hnonneg : 0 ≤ attackLevel level inc := by
    by_cases hinc : inc = 0
    · rw [hinc, attackLevel_zero]
      omega
    · omega
  rw [BitVec.toNat_ofInt]
  omega

theorem invertLevel_toNat (level : BitVec 10) : (invertLevel level).toNat = (0x600 - level.toNat) % 0x400 := by
  unfold invertLevel
  bv_omega

/-! ## Key-on and key-off (R152, R153) -/

/-- An attack that begins keeps the level there is, unless it is instant and so over. -/
theorem beginAttack_eq (x : Operator) (kc : BitVec 5) :
    (if x.instantAttack kc = true then x.toDecay else { x with egState := .attack }) =
      { x with
        level := if 62 ≤ x.effRate .attack kc then 0 else x.level
        egState := if 62 ≤ x.effRate .attack kc then .decay else .attack } := by
  simp only [instantAttack_iff]
  by_cases h : 62 ≤ x.effRate .attack kc
  · simp only [if_pos h]
    rfl
  · simp only [if_neg h]

theorem keyOn_fields (x : Operator) (kc : BitVec 5) :
    x.keyOn kc =
      { x with
        phase := 0
        ssgInv := x.ssg.getLsbD 3 && x.ssg.getLsbD 2
        level := if 62 ≤ x.effRate .attack kc then 0 else x.level
        egState := if 62 ≤ x.effRate .attack kc then .decay else .attack } :=
  beginAttack_eq _ kc

theorem keyOff_egState (x : Operator) : x.keyOff.egState = .release := by
  unfold Operator.keyOff
  split
  · assumption
  · rfl

/-- A released operator keeps its envelope on a key-off. -/
theorem keyOff_of_release (h : x.egState = .release) : x.keyOff = x := if_pos h

/-- A key-off stores the level that the output stage saw (R151). -/
theorem keyOff_level (x : Operator) : x.keyOff.level = x.egOut := by
  unfold Operator.keyOff Operator.egOut
  by_cases h : x.egState = .release
  · simp [h]
  · simp [h]

theorem egOut_of_release (h : x.egState = .release) : x.egOut = x.level := by simp [Operator.egOut, h]

theorem egOut_toNat (x : Operator) :
    x.egOut.toNat =
      if x.egState ≠ .release ∧ x.ssg.getLsbD 3 = true ∧ x.ssgInv = true then (0x600 - x.level.toNat) % 0x400
      else x.level.toNat := by
  rw [Operator.egOut, apply_ite BitVec.toNat, invertLevel_toNat]
  exact if_congr (by rw [Operator.ssgOn]; tauto) rfl rfl

/-! ## The envelope step, state by state (R146..R150) -/

/-- An attack ends at level 0, at once or by the increment that reaches it; else it follows its curve (R146). -/
theorem egStep_of_attack (h : x.egState = .attack) :
    x.egStep kc cnt =
      let v := attackLevel x.level (egInc (x.effRate .attack kc) cnt)
      if 62 ≤ x.effRate .attack kc ∨ (egInc (x.effRate .attack kc) cnt ≠ 0 ∧ v ≤ 0) then x.toDecay
      else { x with level := BitVec.ofInt 10 v } := by
  have hstep : x.egStep kc cnt = x.attackStep kc cnt := by rw [Operator.egStep, h]
  rw [hstep, Operator.attackStep]
  simp only [instantAttack_iff]
  by_cases hinstant : 62 ≤ x.effRate .attack kc
  · simp [hinstant]
  · by_cases hinc : egInc (x.effRate .attack kc) cnt = 0
    · simp [hinstant, hinc]
    · simp [hinstant, hinc]

/-- Decay makes the sustain comparison first and counts only below it; the boundary action comes last (R147). -/
theorem egStep_of_decay (h : x.egState = .decay) :
    x.egStep kc cnt =
      { x with
        egState := if sustainLevel x.d1l ≤ x.level.toNat then .sustain else .decay
        level := if sustainLevel x.d1l ≤ x.level.toNat then x.level else x.raised (egInc (x.effRate .decay kc) cnt)
        : Operator }.ssgCheck kc := by
  have hstep : x.egStep kc cnt = x.decayStep kc cnt := by rw [Operator.egStep, h]
  rw [hstep, Operator.decayStep]
  by_cases hpassed : sustainLevel x.d1l ≤ x.level.toNat
  · simp only [ge_iff_le, if_pos hpassed]
  · simp only [ge_iff_le, if_neg hpassed, ← h]

/-- Sustain counts, then makes the boundary action (R148). -/
theorem egStep_of_sustain (h : x.egState = .sustain) :
    x.egStep kc cnt =
      { x with egState := .sustain, level := x.raised (egInc (x.effRate .sustain kc) cnt) : Operator }.ssgCheck kc := by
  have hstep : x.egStep kc cnt = x.sustainStep kc cnt := by rw [Operator.egStep, h]
  simp only [hstep, Operator.sustainStep, ← h]

/-- Release counts and forces silence from 0x200 (R149). -/
theorem egStep_of_release (h : x.egState = .release) :
    x.egStep kc cnt =
      let l := x.raised (egInc (x.effRate .release kc) cnt)
      { x with level := if x.ssgOn = true ∧ 0x200 ≤ l.toNat then 0x3FF else l } := by
  have hstep : x.egStep kc cnt = x.releaseStep kc cnt := by rw [Operator.egStep, h]
  exact hstep

/-- Below the boundary, or without SSG-EG, there is no boundary action. -/
theorem ssgCheck_of_below (h : x.ssgOn = true → x.level.toNat < 0x200) : x.ssgCheck kc = x :=
  if_neg fun ⟨hon, _, hlevel⟩ => Nat.not_lt.mpr hlevel (h hon)

/-- At the boundary a Decay or Sustain holds or repeats, by `ssg[0]` (R150). -/
theorem ssgCheck_of_boundary (hst : x.egState = .decay ∨ x.egState = .sustain) (hon : x.ssgOn = true)
    (h : 0x200 ≤ x.level.toNat) : x.ssgCheck kc = if x.ssg.getLsbD 0 = true then x.ssgHold else x.ssgRepeat kc :=
  if_pos ⟨hon, hst, h⟩

theorem ssgRepeat_fields (x : Operator) (kc : BitVec 5) :
    x.ssgRepeat kc =
      { x with
        ssgInv := if x.ssg.getLsbD 1 = true then !x.ssgInv else x.ssgInv
        level := if 62 ≤ x.effRate .attack kc then 0 else x.level
        egState := if 62 ≤ x.effRate .attack kc then .decay else .attack } :=
  beginAttack_eq _ kc

/-- The boundary action never begins a Sustain. -/
theorem ssgCheck_egState_ne_sustain (h : x.egState ≠ .sustain) : (x.ssgCheck kc).egState ≠ .sustain := by
  unfold Operator.ssgCheck
  split
  · split
    · exact h
    · rw [ssgRepeat_fields]
      dsimp only
      split <;> nofun
  · exact h

/-- A step whose count leaves state `st` and level `n`, with the boundary action after it (R147, R148, R150). -/
theorem egStep_boundary {l : BitVec 10} {n : Nat}
    (hstep : x.egStep kc cnt = { x with egState := st, level := l : Operator }.ssgCheck kc)
    (hst : st = .decay ∨ st = .sustain) (hl : l.toNat = n) :
    let y := x.egStep kc cnt
    if x.ssg.getLsbD 3 = true ∧ 0x200 ≤ n then
      if x.ssg.getLsbD 0 = true then
        y.egState = st ∧ y.ssgInv = (if x.ssg.getLsbD 1 = true then !x.ssg.getLsbD 2 else x.ssgInv) ∧
        y.level.toNat = if y.ssgInv = true then n else 0x3FF
      else
        y.ssgInv = (if x.ssg.getLsbD 1 = true then !x.ssgInv else x.ssgInv) ∧
        if 62 ≤ x.effRate .attack kc then y.egState = .decay ∧ y.level = 0
        else y.egState = .attack ∧ y.level.toNat = n
    else y.egState = st ∧ y.ssgInv = x.ssgInv ∧ y.level.toNat = n := by
  subst hl
  rw [hstep]
  split
  case isTrue hbound =>
    obtain ⟨hon, hlevel⟩ := hbound
    rw [ssgCheck_of_boundary (x := { x with egState := st, level := l }) hst hon hlevel]
    dsimp only
    split
    case isTrue => exact ⟨rfl, rfl, apply_ite BitVec.toNat _ _ _⟩
    case isFalse =>
      rw [ssgRepeat_fields]
      refine ⟨rfl, ?_⟩
      split
      case isTrue h => exact ⟨if_pos h, if_pos h⟩
      case isFalse h => exact ⟨if_neg h, congrArg BitVec.toNat (if_neg h)⟩
  case isFalse hbelow =>
    rw [ssgCheck_of_below]
    · exact ⟨rfl, rfl, rfl⟩
    · exact fun hon => Nat.lt_of_not_le fun hlevel => hbelow ⟨hon, hlevel⟩

/-- An attack step never raises the level, and it ends the attack exactly at level 0 (R155). -/
theorem egStep_attack_level (h : x.egState = .attack) :
    let y := x.egStep kc cnt
    y.level.toNat ≤ x.level.toNat ∧
    (y.egState = .decay ↔
      62 ≤ x.effRate .attack kc ∨ (egInc (x.effRate .attack kc) cnt ≠ 0 ∧ y.level = 0)) ∧
    (y.egState = .decay → y.level = 0) ∧ (y.egState ≠ .decay → y.egState = .attack) := by
  rw [egStep_of_attack h]
  dsimp only
  split
  case isTrue hend =>
    exact ⟨Nat.zero_le _, iff_of_true rfl (hend.imp_right fun ⟨hinc, _⟩ => ⟨hinc, rfl⟩), fun _ => rfl, absurd rfl⟩
  case isFalse hcurve =>
    have hlevel := attackLevel_toNat fun hreached => hcurve (.inr hreached)
    have hst : x.egState ≠ .decay := by simp [h]
    refine ⟨?falls, iff_of_false hst fun hended => hcurve (hended.imp_right ?reached), fun hd => absurd hd hst, fun _ => h⟩
    case falls => exact Int.ofNat_le.mp (hlevel.trans_le (attackLevel_le _ _))
    case reached =>
      rintro ⟨hinc, hzero⟩
      exact ⟨hinc, hlevel.symm.trans_le (Int.ofNat_le.mpr (congrArg BitVec.toNat hzero).le)⟩

/-- A register rate 0 keeps the level in every state but Release, up to the SSG-EG boundary (R155). -/
theorem egStep_frozen_level (hst : x.egState ≠ .release) (hrate : x.rate5 x.egState = 0)
    (hssg : x.ssgOn = true → x.egState = .attack ∨ x.level.toNat < 0x200) : (x.egStep kc cnt).level = x.level := by
  have heff : x.effRate x.egState kc = 0 := effRate_of_rate5_eq_zero hrate
  cases h : x.egState with
  | attack =>
    rw [h] at heff
    simp [egStep_of_attack h, heff]
  | decay =>
    simp only [h, reduceCtorEq, false_or] at heff hssg
    rw [egStep_of_decay h, heff, egInc_zero, raised_zero, ite_self, ssgCheck_of_below]
    exact hssg
  | sustain =>
    simp only [h, reduceCtorEq, false_or] at heff hssg
    rw [egStep_of_sustain h, heff, egInc_zero, raised_zero, ssgCheck_of_below]
    exact hssg
  | release => exact absurd h hst

end

/-! ## The claims -/

/-- Settles O45: rates, increments and sustain levels by their values; a step's properties by its equation in each state. -/
theorem envelopeStepProperties : Obligations.EnvelopeStepProperties := by
  refine ⟨fun x st kc => ⟨by cases st <;> rfl, rfl⟩, effRate_eq, egInc_eq, sustainLevel_eq, fun x kc cnt =>
    ⟨Nat.le_of_lt_succ (BitVec.isLt _), egStep_frozen_level, egStep_attack_level, ?passed, ?below⟩⟩
  case passed =>
    intro h hssg hpassed
    rw [egStep_of_decay h, if_pos hpassed, if_pos hpassed]
    exact ssgCheck_of_below hssg
  case below =>
    intro h hbelow
    rw [egStep_of_decay h, if_neg (Nat.not_le.mpr hbelow)]
    exact ssgCheck_egState_ne_sustain nofun

/-- Settles O46: the key operations by `keyOn_fields` and `keyOff_egState`; a step by its equation in each state, with the boundary
action after Decay and Sustain. -/
theorem envelopeTransitions : Obligations.EnvelopeTransitions := by
  refine fun x kc cnt => ⟨?instant, ?attack, keyOff_egState x, keyOff_of_release, egStep_onlyEnvelope x kc cnt, ?step⟩
  case instant =>
    intro h
    rw [keyOn_fields]
    exact ⟨if_pos h, if_pos h⟩
  case attack =>
    intro h
    rw [keyOn_fields]
    exact if_neg (Nat.not_le.mpr h)
  case step =>
    cases h : x.egState with
    | attack =>
      simp only [egStep_of_attack h, ← attackLevel_eq]
      split
      case isTrue hend => exact ⟨rfl, rfl, rfl⟩
      case isFalse hcurve => exact ⟨rfl, h, attackLevel_toNat fun hreached => hcurve (.inr hreached)⟩
    | decay =>
      simp only [true_and]
      refine egStep_boundary (egStep_of_decay h) (by split <;> simp) ?_
      rw [apply_ite BitVec.toNat, raised_toNat]
      rfl
    | sustain =>
      simp only [reduceCtorEq, false_and, if_false]
      exact egStep_boundary (egStep_of_sustain h) (.inr rfl) raised_toNat
    | release =>
      simp only [reduceCtorEq, false_and, if_false, egStep_of_release h, apply_ite BitVec.toNat, raised_toNat]
      exact ⟨trivial, h, rfl⟩

/-- Settles O47: both operations by what they write; a key-off stores what the output stage saw, and Release shows it unchanged. -/
theorem keyOnAndKeyOffWriteTheEnvelope : Obligations.KeyOnAndKeyOffWriteTheEnvelope := by
  refine fun x kc => ⟨keyOn_fields x kc, ⟨x.keyOff.level, ?fields, ?level⟩, ?inaudible⟩
  case fields =>
    have hinv : x.keyOff.ssgInv = x.ssgInv := by
      unfold Operator.keyOff
      split <;> rfl
    rw [← keyOff_egState x, ← hinv]
    exact keyOff_onlyEnvelope x
  case level => rw [keyOff_level, egOut_toNat]
  case inaudible => rw [egOut_of_release (keyOff_egState x), keyOff_level]

/-! ## The envelope clock (R140) -/

theorem egCounterNext_toNat (n : BitVec 12) :
    (egCounterNext n).toNat = if n.toNat = 4095 then 1 else n.toNat + 1 := by
  have hlast : n = 4095 ↔ n.toNat = 4095 := BitVec.toNat_inj.symm
  have := n.isLt
  simp only [egCounterNext, hlast]
  split
  case isTrue => rfl
  case isFalse => bv_omega

/-- Settles O48: the clock by the fields of a tick, the operators through the envelope step to the channels, which record phase and
history alone. -/
theorem tickRunsTheEnvelopeEveryThirdTime : Obligations.TickRunsTheEnvelopeEveryThirdTime := by
  intro s hsub
  have hthird : s.egSub + 1 = 3 ↔ s.egSub = 2 := by omega
  refine ⟨nativeTick_sampleCount s, ?sub, ?counter, ?others, fun c o => ?envelope⟩
  case sub =>
    rw [nativeTick_egSub]
    split <;> omega
  case counter =>
    rw [nativeTick_egCounter, apply_ite BitVec.toNat, egCounterNext_toNat]
    simp only [hthird]
  case others =>
    intro hne
    refine PerCh.ext_get fun c => PerOp.ext_get fun o => ?_
    exact (beforeChannels_op s c o).trans (if_neg (mt hthird.mp hne))
  case envelope =>
    have hop : s.beforeChannels.op c o =
        if s.egSub = 2 then (s.timerStep.op c o).egStep (s.keyCode c o) s.nativeTick.1.egCounter
        else s.timerStep.op c o := by
      rw [beforeChannels_op, nativeTick_egCounter]
      simp only [hthird]
      split <;> rfl
    dsimp only
    rw [← hop, nativeTick_op]
    exact ⟨rfl, rfl, rfl⟩

end Sys2Proof.Machine
end

section
/-! PROOFS. The output conversion (42_operator_output.md R180..R183, R190): the table index, the shape of the two tables, the magnitude
between them and the symmetries of the sample. -/

namespace Sys2Proof.Machine

/-! ## The table index (R181) -/

theorem quarterIndex_toNat (idx : BitVec 10) :
    (quarterIndex idx).toNat = if idx.getLsbD 8 then 255 - idx.toNat % 256 else idx.toNat % 256 := by
  have hlow : (idx.extractLsb' 0 8).toNat = idx.toNat % 256 := by simp
  unfold quarterIndex
  dsimp only
  rw [apply_ite BitVec.toNat, show (0xFF : BitVec 8) = BitVec.allOnes 8 from rfl, BitVec.xor_allOnes, BitVec.toNat_not, hlow]

/-- Half a wave further stands the same table index. -/
theorem quarterIndex_halfWave (idx : BitVec 10) : quarterIndex (idx ^^^ 0x200) = quarterIndex idx := by
  simp [quarterIndex, BitVec.extractLsb'_xor]

/-- Mirrored about the middle of its half-wave stands the same table index: the low bits are inverted, and which way they are read. -/
theorem quarterIndex_mirror (idx : BitVec 10) : quarterIndex (idx ^^^ 0x1FF) = quarterIndex idx := by
  have hlow : (idx ^^^ 0x1FF).extractLsb' 0 8 = idx.extractLsb' 0 8 ^^^ 0xFF := BitVec.extractLsb'_xor
  have hdir : (idx ^^^ 0x1FF).getLsbD 8 = !idx.getLsbD 8 := by simp
  unfold quarterIndex
  rw [hlow, hdir]
  cases idx.getLsbD 8 <;> simp

/-! ## The tables (R180, R182) -/

/-- The tables have sixteen rows of sixteen: what holds at every place holds of every index. -/
theorem of_rows {P : Nat → Prop} (rows : ∀ r c : Fin 16, P (16 * r + c)) {n : Nat} (h : n < 256) : P n :=
  Nat.div_add_mod n 16 ▸ rows ⟨n / 16, by omega⟩ ⟨n % 16, by omega⟩

/-- No entry of the log-to-linear table is below its last. -/
theorem le_pow2 {f : Nat} (h : f < 256) : 1024 ≤ pow2 f :=
  of_rows (P := fun f => 1024 ≤ pow2 f) (by decide) h

/-- Each entry is `2 ^ (11 - (f + 1) / 256)` rounded: the 256th powers of the neighbouring half-integers enclose its power. -/
theorem pow2_rounded {f : Nat} (h : f < 256) :
    (2 * pow2 f - 1) ^ 256 ≤ 2 ^ (11 * 256 + 255 - f) ∧ 2 ^ (11 * 256 + 255 - f) < (2 * pow2 f + 1) ^ 256 := by
  have hsplit : 2 ^ (11 * 256 + 255 - f) = 2048 ^ 256 * 2 ^ (255 - f) := by
    have hexp : 11 * 256 + 255 - f = 11 * 256 + (255 - f) := by omega
    rw [hexp, Nat.pow_add, Nat.pow_mul 2 11 256]
  rw [hsplit]
  exact of_rows (P := fun f => (2 * pow2 f - 1) ^ 256 ≤ 2048 ^ 256 * 2 ^ (255 - f) ∧
    2048 ^ 256 * 2 ^ (255 - f) < (2 * pow2 f + 1) ^ 256) (by decide) h

/-- The log-sine table never rises, since no entry exceeds the one before it. -/
theorem logSin_antitone {i j : BitVec 8} (h : i.toNat ≤ j.toNat) : logSin j ≤ logSin i := by
  have hstep (n : Nat) (hn : n < 255) : logSin (BitVec.ofNat 8 (n + 1)) ≤ logSin (BitVec.ofNat 8 n) :=
    of_rows (P := fun n => n < 255 → logSin (BitVec.ofNat 8 (n + 1)) ≤ logSin (BitVec.ofNat 8 n)) (by decide)
      (Nat.lt_succ_of_lt hn) hn
  have hanti : AntitoneOn (fun n => logSin (BitVec.ofNat 8 n)) (Set.Iic 255) :=
    antitoneOn_of_succ_le Set.ordConnected_Iic fun n _ _ hn => hstep n hn
  simpa using hanti (Nat.le_of_lt_succ i.isLt) (Nat.le_of_lt_succ j.isLt) h

/-- The last eight entries, the peak of the sine, are 0. -/
theorem logSin_peak {i : BitVec 8} (h : 248 ≤ i.toNat) : logSin i = 0 :=
  Nat.le_zero.mp (logSin_antitone (i := 248) h)

/-! ## The magnitude and the sample (R183, R190) -/

theorem opMag_eq (q : BitVec 8) (att : Nat) :
    opMag q att = 4 * pow2 ((logSin q + 4 * att) % 256) / 2 ^ ((logSin q + 4 * att) / 256) := by
  simp only [opMag, Nat.shiftLeft_eq, Nat.shiftRight_eq_div_pow, Nat.mul_comm]

/-- The output sounds exactly below log level 13 * 256: table entries fill bits 12 down to 2 of the magnitude and no bit above. -/
theorem opMag_pos_iff (q : BitVec 8) (att : Nat) : 0 < opMag q att ↔ logSin q + 4 * att < 3328 := by
  have hf : (logSin q + 4 * att) % 256 < 256 := Nat.mod_lt _ (by omega)
  have hlo := le_pow2 hf
  have hhi := pow2_le _ hf
  rw [opMag_eq, Nat.div_pos_iff]
  constructor
  case mp =>
    rintro ⟨-, hle⟩
    by_contra hge
    have : 2 ^ 13 ≤ 2 ^ ((logSin q + 4 * att) / 256) := Nat.pow_le_pow_right (by omega) (by omega)
    omega
  case mpr =>
    intro hlt
    have : 2 ^ ((logSin q + 4 * att) / 256) ≤ 2 ^ 12 := Nat.pow_le_pow_right (by omega) (by omega)
    exact ⟨Nat.two_pow_pos _, by omega⟩

theorem opMag_peak {q : BitVec 8} (h : 248 ≤ q.toNat) : opMag q 0 = 8168 := by
  rw [opMag_eq, logSin_peak h]
  rfl

theorem opOut_eq_zero_iff (idx : BitVec 10) (att : Nat) : opOut idx att = 0 ↔ opMag (quarterIndex idx) att = 0 := by
  unfold opOut
  dsimp only
  split <;> omega

/-- Settles O49: the index and the tables by their lemmas, the output by its magnitude, and the properties by where the magnitude is
positive and by the table index that half-waves and mirrored quarters share. -/
theorem outputConversionProperties : Obligations.OutputConversionProperties := by
  refine ⟨quarterIndex_toNat, fun _ => pow2_rounded, ⟨rfl, fun _ _ => logSin_antitone, fun _ => logSin_peak⟩,
    fun idx att => ?formula, fun idx => ?silence, fun idx hpeak => ?peak, fun idx att => ?halfWave, fun idx att => ?mirror,
    fun idx att hpeak _ => ?cutOff⟩
  case formula =>
    dsimp only
    rw [opOut, ← opMag_eq]
  case silence =>
    have := opMag_pos_iff (quarterIndex idx) 0x3FF
    rw [opOut_eq_zero_iff]
    omega
  case peak =>
    rw [opOut, opMag_peak hpeak]
    cases idx.getLsbD 9
    · exact .inl rfl
    · exact .inr rfl
  case halfWave =>
    have hsign : (idx ^^^ 0x200).getLsbD 9 = !idx.getLsbD 9 := by simp
    rw [opOut, opOut, quarterIndex_halfWave, hsign]
    cases idx.getLsbD 9 <;> simp
  case mirror =>
    have hsign : (idx ^^^ 0x1FF).getLsbD 9 = idx.getLsbD 9 := by simp
    rw [opOut, opOut, quarterIndex_mirror, hsign]
  case cutOff =>
    have hpos := opMag_pos_iff (quarterIndex idx) att
    rw [logSin_peak hpeak] at hpos
    rw [ne_eq, opOut_eq_zero_iff]
    omega

end Sys2Proof.Machine
end

section
/-! PROOFS. The evaluation of the operators in a tick (42_operator_output.md R181, R184..R189; 43_algorithm_router.md R201, R202): every
operator makes its output from the state the channels see, and records it. -/

namespace Sys2Proof.Machine

/-! ## Phase index, feedback, attenuation -/

theorem phaseIndex_toNat (phase : BitVec 20) (m : Int) :
    ((phaseIndex phase m).toNat : Int) = (phase.toNat / 1024 + m) % 1024 := by
  rw [phaseIndex, BitVec.toNat_ofInt, Nat.shiftRight_eq_div_pow]
  omega

theorem feedbackOf_eq (fb : BitVec 3) (h0 h1 : Int) :
    feedbackOf fb h0 h1 = if fb.toNat = 0 then 0 else (h0 + h1) / (2 ^ (10 - fb.toNat) : Nat) := by
  rw [feedbackOf, asr_eq_div]
  exact if_congr BitVec.toNat_inj.symm rfl rfl

theorem amDelta_eq (s : Chip) (c : ChIx) : s.amDelta c = s.lfo.am / 2 ^ [8, 3, 1, 0].getD (s.chan c).ams.toNat 0 :=
  Nat.shiftRight_eq_div_pow _ _

/-- Total level, then the envelope as the output stage sees it (R184, R185, 41_envelope_generator.md R151), then amplitude modulation. -/
theorem attOf_eq (x : Operator) (amDelta : Nat) :
    attOf x amDelta =
      let eg :=
        if x.ssg.getLsbD 3 = true ∧ x.ssgInv = true ∧ x.egState ≠ .release then (0x600 - x.level.toNat) % 0x400
        else x.level.toNat
      let a := min (8 * x.tl.toNat + eg) 0x3FF
      if x.am then min (a + amDelta) 0x3FF else a := by
  have htl : tlAtt x.tl = 8 * x.tl.toNat := by rw [tlAtt, Nat.shiftLeft_eq, Nat.mul_comm]
  have heg : (x.egState ≠ .release ∧ x.ssg.getLsbD 3 = true ∧ x.ssgInv = true) ↔
      (x.ssg.getLsbD 3 = true ∧ x.ssgInv = true ∧ x.egState ≠ .release) := by tauto
  simp only [attOf, htl, egOut_toNat, heg]

/-! ## Modulation (43_algorithm_router.md R200..R202) -/

theorem modIn_eq (alg : BitVec 3) (o : OpIx) (out : PerOp Int) :
    modIn alg o out = ((mods alg o).map fun j => out.get j / 2).sum := by
  simp only [modIn, asr_eq_div]
  rfl

/-- A modulator has a lower number than what it modulates (R200). -/
theorem number_lt_of_mem_mods (alg : BitVec 3) (o : OpIx) : ∀ j ∈ mods alg o, j.number < o.number := by
  revert alg
  cases o <;> decide

/-- The modulation of an operator reads the outputs of the operators before it alone. -/
theorem modIn_congr {alg : BitVec 3} {o : OpIx} {out out' : PerOp Int}
    (h : ∀ j : OpIx, j.number < o.number → out.get j = out'.get j) : modIn alg o out = modIn alg o out' := by
  have hmap : ((mods alg o).map fun j => asr (out.get j) 1) = (mods alg o).map fun j => asr (out'.get j) 1 :=
    List.map_congr_left fun j hj => by rw [h j (number_lt_of_mem_mods alg o j hj)]
  rw [modIn, hmap, modIn]

/-- The modulation input of an operator on a tick: feedback for operator 1, the modulators' outputs for the others. -/
def Chip.modulation (s : Chip) (c : ChIx) : OpIx → Int
  | .op1 => s.feedback c
  | o => modIn (s.chan c).alg o (s.chanOuts c)

theorem modulation_of_ne_op1 (s : Chip) (c : ChIx) {o : OpIx} (h : o ≠ .op1) :
    s.modulation c o = modIn (s.chan c).alg o (s.chanOuts c) := by
  cases o with
  | op1 => exact absurd rfl h
  | op2 | op3 | op4 => rfl

/-- The outputs of a tick satisfy the equations of R201 all at once: what was not yet made when an operator was evaluated does not
modulate it. -/
theorem chanOuts_get (s : Chip) (c : ChIx) (o : OpIx) : (s.chanOuts c).get o = s.opEval c o (s.modulation c o) := by
  have hbefore {out : PerOp Int} (h : ∀ j : OpIx, j.number < o.number → out.get j = (s.chanOuts c).get j) :
      s.opEval c o (modIn (s.chan c).alg o out) = s.opEval c o (modIn (s.chan c).alg o (s.chanOuts c)) := by
    rw [modIn_congr h]
  cases o with
  | op1 => rfl
  | op2 | op3 | op4 =>
    refine hbefore fun j hj => ?_
    cases j <;> simp [OpIx.number] at hj <;> rfl

/-! ## The tick -/

section
variable (s : Chip) (c : ChIx) (o : OpIx)

@[simp] theorem beforeChannels_hist1 : (s.beforeChannels.op c o).hist1 = (s.op c o).hist1 := by
  have htimer : (s.timerStep.op c o).hist1 = (s.op c o).hist1 := by
    rw [timerStep_op, csmRelease_op]
    split <;> split <;> simp
  rw [beforeChannels_op, ← htimer]
  split
  · rw [egStep_onlyEnvelope]
  · rfl

/-- The feedback is that of the history the tick began with (R187). -/
theorem beforeChannels_feedback :
    s.beforeChannels.feedback c = feedbackOf (s.chan c).fb (s.op c .op1).hist0 (s.op c .op1).hist1 := by
  rw [Chip.feedback, beforeChannels_chan, beforeChannels_hist0, beforeChannels_hist1]

/-- The channels leave the attenuation as it was when they read it. -/
theorem nativeTick_att : s.nativeTick.1.att c o = s.beforeChannels.att c o := by
  have ham : s.nativeTick.1.amDelta c = s.beforeChannels.amDelta c := by
    rw [Chip.amDelta, Chip.amDelta, beforeChannels_chan, beforeChannels_eq, nativeTick_eq]
    rfl
  rw [Chip.att, ham, nativeTick_op]
  rfl

/-- The recorded output, by the phase and the attenuation that the tick leaves (R127, R189). -/
theorem nativeTick_hist0_eq :
    (s.nativeTick.1.op c o).hist0 =
      opOut (phaseIndex (s.nativeTick.1.op c o).phase (s.beforeChannels.modulation c o)) (s.nativeTick.1.att c o) := by
  rw [nativeTick_hist0, chanOuts_get, Chip.opEval, nativeTick_att, nativeTick_op]
  rfl

/-- The channel registers are the host's to write. -/
@[simp] theorem nativeTick_chan : s.nativeTick.1.chan c = s.chan c := by
  rw [chan_of_ch (s := s)]
  rw [nativeTick_eq]

end

/-- Settles O55: the shift by `nativeTick_hist1`, the new entry by `nativeTick_hist0_eq` with the modulation of operator 1 and of the
others. -/
theorem everyOperatorIsEvaluatedEveryTick : Obligations.EveryOperatorIsEvaluatedEveryTick := by
  refine ⟨phaseIndex_toNat, feedbackOf_eq, fun s c => ?_⟩
  have hout (o : OpIx) := nativeTick_hist0_eq s c o
  simp only [Chip.att, attOf_eq, amDelta_eq, nativeTick_chan] at hout
  refine ⟨nativeTick_hist1 s c, ?op1, fun o ho => ?others⟩
  case op1 =>
    rw [hout, ← beforeChannels_feedback]
    rfl
  case others =>
    rw [hout, modulation_of_ne_op1 _ _ ho, modIn_eq, beforeChannels_chan]
    simp only [nativeTick_hist0]
    rfl

end Sys2Proof.Machine
end

section
/-! PROOFS. The algorithm router (43_algorithm_router.md R200..R205, R209): the topology of the algorithms, the carriers' sum, and the
ranges of the signals. -/

namespace Sys2Proof.Machine

/-! ## Topology (R200) -/

theorem mods_op1 : ∀ alg : BitVec 3, mods alg .op1 = [] := by decide

/-- The modulators of operators 2 to 4, a row for each algorithm. -/
theorem mods_rows : ∀ alg : BitVec 3, (mods alg .op2, mods alg .op3, mods alg .op4) =
    [([.op1], [.op2], [.op3]), ([], [.op1, .op2], [.op3]), ([], [.op2], [.op1, .op3]), ([.op1], [], [.op2, .op3]),
     ([.op1], [], [.op3]), ([.op1], [.op1], [.op1]), ([.op1], [], []), ([], [], [])].getD alg.toNat ([], [], []) := by decide

/-- The carriers in order, a row for each algorithm. -/
theorem carriers_rows : ∀ alg : BitVec 3, (carriers alg).1 :: (carriers alg).2 =
    [[.op4], [.op4], [.op4], [.op4], [.op2, .op4], [.op2, .op3, .op4], [.op2, .op3, .op4],
     [.op1, .op2, .op3, .op4]].getD alg.toNat [] := by decide

theorem carriers_count : ∀ alg : BitVec 3, (carriers alg).2.length + 1 = [1, 1, 1, 1, 2, 3, 3, 4].getD alg.toNat 0 := by decide

/-- Settles O51: the two tables row by row, the order of modulation by `number_lt_of_mem_mods`, and the count of carriers. -/
theorem algorithmTopology : Obligations.AlgorithmTopology :=
  ⟨fun alg => ⟨mods_op1 alg, mods_rows alg, carriers_rows alg⟩, number_lt_of_mem_mods, carriers_count⟩

theorem length_mods_le (alg : BitVec 3) (o : OpIx) : (mods alg o).length ≤ 2 := by
  revert alg
  cases o <;> decide

theorem carriers_of_le_three : ∀ alg : BitVec 3, alg.toNat ≤ 3 → carriers alg = (.op4, []) := by decide
theorem carriers_of_four : ∀ alg : BitVec 3, alg.toNat = 4 → carriers alg = (.op2, [.op4]) := by decide
theorem carriers_of_five_or_six : ∀ alg : BitVec 3, alg.toNat = 5 ∨ alg.toNat = 6 → carriers alg = (.op2, [.op3, .op4]) := by decide
theorem carriers_of_seven : ∀ alg : BitVec 3, alg.toNat = 7 → carriers alg = (.op1, [.op2, .op3, .op4]) := by decide

/-! ## The carriers' sum (R203..R205) -/

theorem q9_eq (x : Int) : q9 x = x / 32 * 32 := by
  rw [q9, asr_eq_div]
  rfl

/-- The accumulator's own range (R204), narrower than that of an unclamped carrier. -/
theorem clampAcc_accumulator_range (x : Int) : -8176 ≤ clampAcc x ∧ clampAcc x ≤ 8160 := by
  unfold clampAcc
  omega

section
variable {alg : BitVec 3} (out : PerOp Int)

theorem carrierSum_of_le_three (h : alg.toNat ≤ 3) : carrierSum alg out = out.op4 / 32 * 32 := by
  rw [carrierSum, carriers_of_le_three alg h, ← q9_eq]
  rfl

theorem carrierSum_of_four (h : alg.toNat = 4) :
    carrierSum alg out = clampAcc (out.op2 / 32 * 32 + out.op4 / 32 * 32) := by
  simp only [carrierSum, carriers_of_four alg h, ← q9_eq]
  rfl

theorem carrierSum_of_five_or_six (h : alg.toNat = 5 ∨ alg.toNat = 6) :
    carrierSum alg out = clampAcc (clampAcc (out.op2 / 32 * 32 + out.op3 / 32 * 32) + out.op4 / 32 * 32) := by
  simp only [carrierSum, carriers_of_five_or_six alg h, ← q9_eq]
  rfl

theorem carrierSum_of_seven (h : alg.toNat = 7) :
    carrierSum alg out =
      clampAcc (clampAcc (clampAcc (out.op1 / 32 * 32 + out.op2 / 32 * 32) + out.op3 / 32 * 32) + out.op4 / 32 * 32) := by
  simp only [carrierSum, carriers_of_seven alg h, ← q9_eq]
  rfl

/-- A single carrier is quantized alone. -/
theorem carrierSum_range_of_le_three (h : alg.toNat ≤ 3) (hout : -8168 ≤ out.op4 ∧ out.op4 ≤ 8168) :
    inChannelRange (carrierSum alg out) := by
  rw [carrierSum_of_le_three out h, ← q9_eq]
  exact q9_range hout

/-- With two carriers or more the last addition is clamped, whatever the outputs are. -/
theorem carrierSum_range_of_four_le (h : 4 ≤ alg.toNat) : -8176 ≤ carrierSum alg out ∧ carrierSum alg out ≤ 8160 := by
  obtain h4 | h56 | h7 : alg.toNat = 4 ∨ (alg.toNat = 5 ∨ alg.toNat = 6) ∨ alg.toNat = 7 := by omega
  · rw [carrierSum_of_four out h4]
    exact clampAcc_accumulator_range _
  · rw [carrierSum_of_five_or_six out h56]
    exact clampAcc_accumulator_range _
  · rw [carrierSum_of_seven out h7]
    exact clampAcc_accumulator_range _

end

/-- Settles O52: R205's example by evaluation, each formula by the number of carriers. -/
theorem carrierSumClampsAfterEachAddition : Obligations.CarrierSumClampsAfterEachAddition := by
  refine ⟨by decide, fun alg out => ⟨carrierSum_of_le_three out, fun h hlo hhi => ?_, carrierSum_range_of_four_le out,
    carrierSum_of_four out, carrierSum_of_five_or_six out, carrierSum_of_seven out⟩⟩
  exact carrierSum_range_of_le_three out h ⟨hlo, hhi⟩

/-! ## Ranges (R209) -/

/-- At most two modulators, each halved, sum to no more than one output (R202). -/
theorem modIn_range {alg : BitVec 3} {o : OpIx} {out : PerOp Int} (h : ∀ j, -8168 ≤ out.get j ∧ out.get j ≤ 8168) :
    -8168 ≤ modIn alg o out ∧ modIn alg o out ≤ 8168 := by
  have hhalf : ∀ x ∈ (mods alg o).map fun j => out.get j / 2, -4084 ≤ x ∧ x ≤ 4084 := by
    intro x hx
    obtain ⟨j, -, rfl⟩ := List.mem_map.mp hx
    have := h j
    omega
  have hlo := List.card_nsmul_le_sum _ _ fun x hx => (hhalf x hx).1
  have hhi := List.sum_le_card_nsmul _ _ fun x hx => (hhalf x hx).2
  have hlen := length_mods_le alg o
  rw [List.length_map, nsmul_eq_mul] at hlo hhi
  rw [modIn_eq]
  omega

/-- Feedback divides the sum of two outputs by 8 at least (R187). -/
theorem feedbackOf_range (fb : BitVec 3) {h0 h1 : Int} (hsum : -16336 ≤ h0 + h1 ∧ h0 + h1 ≤ 16336) :
    -2042 ≤ feedbackOf fb h0 h1 ∧ feedbackOf fb h0 h1 ≤ 2042 := by
  rw [feedbackOf_eq]
  split
  · omega
  · have hdiv : 2 ^ 3 ≤ 2 ^ (10 - fb.toNat) := Nat.pow_le_pow_right (by omega) (by omega)
    generalize 2 ^ (10 - fb.toNat) = d at hdiv ⊢
    have hd : (0 : Int) < d := by omega
    exact ⟨(Int.le_ediv_iff_mul_le hd).mpr (by omega), Int.lt_add_one_iff.mp ((Int.ediv_lt_iff_lt_mul hd).mpr (by omega))⟩

/-- Settles O50: outputs and samples by the ranges that keep the invariant, modulation and feedback by `modIn_range` and `feedbackOf_range`. -/
theorem signalRanges : Obligations.SignalRanges := by
  refine ⟨opOut_range, fun s c o => modIn_range (chanOuts_range s c), fun s c h => ?feedback, chanSample_range,
    fun s c en => ladder_range en (chanSample_range s c), nativeTick_sample_range⟩
  case feedback =>
    obtain ⟨h0lo, h0hi, h1lo, h1hi⟩ := h
    exact feedbackOf_range _ (by omega)

end Sys2Proof.Machine
end

section
/-! PROOFS. The DAC and the mix (43_algorithm_router.md R206..R208): the DAC registers choose channel 5's sample and reach nothing else
of a tick, and both sides are sums of the samples made from the outputs that the tick records. -/

namespace Sys2Proof.Machine

/-! ## The DAC registers (R206) -/

/-- The block with other values in the two DAC registers (10_state.md R43). -/
def Chip.withDac (s : Chip) (en : Bool) (v : Byte) : Chip := { s with dacEnable := en, dacSample := v }

section
variable (s : Chip) (en : Bool) (v : Byte)

theorem csmRelease_withDac : (s.withDac en v).csmRelease = s.csmRelease.withDac en v := by
  unfold Chip.csmRelease
  rw [apply_ite (Chip.withDac · en v)]
  rfl

theorem timerAStep_withDac : (s.withDac en v).timerAStep = s.timerAStep.withDac en v := by
  unfold Chip.timerAStep
  rw [apply_ite (Chip.withDac · en v)]
  rfl

theorem egClock_withDac : (s.withDac en v).egClock = s.egClock.withDac en v := by
  unfold Chip.egClock
  rw [apply_ite (Chip.withDac · en v)]
  rfl

theorem beforeChannels_withDac : (s.withDac en v).beforeChannels = s.beforeChannels.withDac en v := by
  have htimer : (s.withDac en v).timerStep = s.timerStep.withDac en v := by
    rw [Chip.timerStep, csmRelease_withDac, timerAStep_withDac]
    rfl
  rw [Chip.beforeChannels, htimer]
  exact egClock_withDac s.timerStep.lfoStep en v

/-- No sub-step of a tick reads the DAC registers for what it writes. -/
theorem nativeTick_withDac : (s.withDac en v).nativeTick.1 = s.nativeTick.1.withDac en v := by
  rw [Chip.nativeTick, beforeChannels_withDac]
  rfl

end

/-! ## The channel sample (R201, R206) -/

theorem chanSample_of_dac {s : Chip} (h : s.dacEnable = true) : s.chanSample .ch5 = ((s.dacSample.toNat : Int) - 128) * 64 :=
  if_pos ⟨rfl, h⟩

theorem chanSample_of_not_dac {s : Chip} {c : ChIx} (h : c ≠ .ch5 ∨ s.dacEnable = false) :
    s.chanSample c = carrierSum (s.chan c).alg (s.chanOuts c) := by
  refine if_neg fun ⟨hc, hdac⟩ => ?_
  obtain hne | hoff := h
  · exact hne hc
  · exact Bool.false_ne_true (hoff.symm.trans hdac)

/-- Settles O53: the sample by the two cases of R206, the rest of the tick by `nativeTick_withDac`. -/
theorem dacReplacesOnlyChannel5Sample : Obligations.DacReplacesOnlyChannel5Sample := by
  refine ⟨fun s h => ?dac, fun s c h => chanSample_of_not_dac h, nativeTick_withDac⟩
  case dac =>
    have := s.dacSample.isLt
    rw [chanSample_of_dac h]
    omega

/-! ## The mix (R207, R208) -/

/-- The outputs the channel's operators made last, as their histories hold them (10_state.md R36). -/
def Chip.lastOuts (s : Chip) (c : ChIx) : PerOp Int :=
  ⟨(s.op c .op1).hist0, (s.op c .op2).hist0, (s.op c .op3).hist0, (s.op c .op4).hist0⟩

section
variable (s : Chip) (c : ChIx)

/-- The outputs of a tick are those it leaves in the histories (42_operator_output.md R188). -/
theorem nativeTick_lastOuts : s.nativeTick.1.lastOuts c = s.beforeChannels.chanOuts c := by
  simp only [Chip.lastOuts, nativeTick_hist0]
  rfl

/-- The sample of a channel on a tick, from the DAC registers the tick began with or from the outputs it records. -/
theorem beforeChannels_chanSample : s.beforeChannels.chanSample c =
    if c = .ch5 ∧ s.dacEnable = true then dacValue s.dacSample
    else carrierSum (s.chan c).alg (s.nativeTick.1.lastOuts c) := by
  have hen : s.beforeChannels.dacEnable = s.dacEnable := by rw [beforeChannels_eq]
  have hsample : s.beforeChannels.dacSample = s.dacSample := by rw [beforeChannels_eq]
  rw [Chip.chanSample, beforeChannels_chan, nativeTick_lastOuts, hen, hsample]

/-- A tick's sample is the mix by the pans it began with. -/
theorem nativeTick_sample : s.nativeTick.2 = s.mix s.beforeChannels.chanSample := by
  unfold Chip.nativeTick Chip.mix
  simp only [beforeChannels_chan]

end

/-- Settles O54: the ladder by its definition, the two sides by `nativeTick_sample` and `beforeChannels_chanSample`. -/
theorem mixSumsLadderedChannels : Obligations.MixSumsLadderedChannels := by
  refine ⟨fun v => ⟨rfl, rfl⟩, fun s => ⟨?sides, nativeTick_sample_range s⟩⟩
  case sides =>
    rw [nativeTick_sample, funext (beforeChannels_chanSample s), Chip.mix, asr_eq_div, asr_eq_div]
    rfl

end Sys2Proof.Machine
end

section
/-! PROOFS. The low-frequency oscillator (44_lfo.md): its three kinds of tick, what a disabling write leaves for good, and the
phase-modulation delta as a sum. -/

namespace Sys2Proof.Machine

/-! ## The LFO's part of a tick (R230..R232) -/

section
variable {l : Lfo}

theorem lfoTick_of_disabled (hen : l.enable = false) : l.tick = l := if_pos hen

theorem lfoTick_of_lt_period (hen : l.enable = true) (hsub : l.sub + 1 < lfoPeriod l.freq) :
    l.tick = { l with sub := l.sub + 1 } := by
  rw [Lfo.tick, if_neg (by simp [hen])]
  exact if_neg (Nat.not_le.mpr hsub)

theorem lfoTick_of_period_le (hen : l.enable = true) (hsub : lfoPeriod l.freq ≤ l.sub + 1) :
    l.tick = { l with sub := 0, step := l.step + 1, am := tri (l.step + 1) } := by
  rw [Lfo.tick, if_neg (by simp [hen])]
  exact if_pos hsub

end

/-- The step counts in 7 bits. -/
theorem lfoStep_succ (step : BitVec 7) : step + 1 = BitVec.ofNat 7 ((step.toNat + 1) % 128) :=
  BitVec.eq_of_toNat_eq (by simp [BitVec.toNat_add])

/-- The triangle of a step given as a number. -/
theorem tri_ofNat {n : Nat} (h : n < 128) : tri (BitVec.ofNat 7 n) = if n < 64 then 126 - 2 * n else 2 * (n - 64) := by
  rw [tri, BitVec.toNat_ofNat, Nat.mod_eq_of_lt h]

/-- Settles O38: a tick moves the LFO by `Lfo.tick`, whose three cases are held, counted and stepped. -/
theorem lfoStepsInATick : Obligations.LfoStepsInATick := by
  intro s
  dsimp only
  rw [nativeTick_lfo]
  refine ⟨lfoTick_of_disabled, lfoTick_of_lt_period, fun hen hsub => ?step⟩
  case step =>
    rw [lfoTick_of_period_le hen hsub, lfoStep_succ, tri_ofNat (Nat.mod_lt _ (by decide))]

/-! ## The terms of the phase-modulation delta (R236, R237) -/

/-- The quarter-step by arithmetic on the step's number. -/
theorem quarterStep_eq (step : BitVec 7) : quarterStep step =
    if step.toNat / 4 / 8 % 2 = 1 then 7 - step.toNat / 4 % 8 else step.toNat / 4 % 8 := by
  revert step
  decide

/-- The back half is the sixteen upper quarter-steps. -/
theorem backHalf_iff (step : BitVec 7) : (step.extractLsb' 2 5).getLsbD 4 = true ↔ 16 ≤ step.toNat / 4 := by
  revert step
  decide

theorem quarterStep_lt (step : BitVec 7) : quarterStep step < 8 := by
  rw [quarterStep_eq]
  split <;> omega

/-- No entry of the table exceeds its corner `PmBase[7][7]`. -/
theorem pmBase_le (fms : BitVec 3) {q : Nat} (hq : q < 8) : pmBase fms q ≤ 96 := by
  revert q fms
  decide

/-- Column 0 of the table is zero. -/
theorem pmBase_zero (fms : BitVec 3) : pmBase fms 0 = 0 := by
  revert fms
  decide

/-- The sum over all seven bits, with 0 for those that are clear, is the sum over the set bits. -/
theorem pmSum_eq (base : Nat) (f : BitVec 11) : pmSum base f =
    (([4, 5, 6, 7, 8, 9, 10].filter fun b => f.getLsbD b).map fun b => base / 2 ^ (10 - b)).sum := by
  rw [pmSum, List.sum_map_ite]
  simp [Nat.shiftRight_eq_div_pow]

@[simp] theorem pmSum_zero (f : BitVec 11) : pmSum 0 f = 0 := by
  simp [pmSum]

/-- The sum grows with the base and with the set bits, term by term. -/
theorem pmSum_le_allOnes {base top : Nat} (h : base ≤ top) (f : BitVec 11) : pmSum base f ≤ pmSum top 0x7FF := by
  refine List.sum_le_sum fun b hb => ?_
  have hbit : (0x7FF : BitVec 11).getLsbD b = true := by
    revert b
    decide
  rw [hbit, if_pos rfl]
  split
  · rw [Nat.shiftRight_eq_div_pow, Nat.shiftRight_eq_div_pow]
    exact Nat.div_le_div_right h
  · exact Nat.zero_le _

theorem pmSum_pmBase_le (step : BitVec 7) (fms : BitVec 3) (f : BitVec 11) :
    pmSum (pmBase fms (quarterStep step)) f ≤ 190 :=
  pmSum_le_allOnes (pmBase_le fms (quarterStep_lt step)) f

/-! ## The phase-modulation delta (R237) -/

/-- The table read as integers. -/
theorem pmBase_cast (fms : BitVec 3) (q : Nat) :
    (pmBase fms q : Int) = ((pmBaseTable.map (List.map Nat.cast)).getD fms.toNat []).getD q 0 := by
  rw [pmBase, ← List.map_nil (f := (Nat.cast : Nat → Int)), List.getD_map, ← Nat.cast_zero (R := Int), List.getD_map]

/-- The sum over the set bits read as integers. -/
theorem pmSum_cast (base : Nat) (f : BitVec 11) : (pmSum base f : Int) =
    (([4, 5, 6, 7, 8, 9, 10].filter fun b => f.getLsbD b).map fun b => (base : Int) / 2 ^ (10 - b)).sum := by
  rw [pmSum_eq, Nat.cast_list_sum, List.map_map]
  simp [Function.comp_def]

theorem pmDeltaOf_eq (step : BitVec 7) (fms : BitVec 3) (f : BitVec 11) : pmDeltaOf step fms f =
    if 16 ≤ step.toNat / 4 then -(pmSum (pmBase fms (quarterStep step)) f : Int)
    else pmSum (pmBase fms (quarterStep step)) f :=
  if_congr (backHalf_iff step) rfl rfl

/-- The largest magnitude of R237. -/
theorem pmDeltaOf_range (step : BitVec 7) (fms : BitVec 3) (f : BitVec 11) :
    -190 ≤ pmDeltaOf step fms f ∧ pmDeltaOf step fms f ≤ 190 := by
  have := pmSum_pmBase_le step fms f
  rw [pmDeltaOf_eq]
  split <;> omega

/-- Settles O40: the delta by its sign and its sum, the range by the largest base, both bounds at the quarter-steps that read it. -/
theorem pmDeltaFollowsItsFormula : Obligations.PmDeltaFollowsItsFormula := by
  refine ⟨fun _ _ _ => rfl, fun step fms f => ⟨?formula, pmDeltaOf_range step fms f⟩, ⟨28, by decide⟩, ⟨92, by decide⟩⟩
  case formula =>
    rw [pmDeltaOf_eq, pmSum_cast, pmBase_cast, quarterStep_eq]
    rfl

/-! ## The disabled LFO (R234, R235, R237) -/

/-- Step 0 reads column 0 of the table. -/
theorem pmDeltaOf_zero (fms : BitVec 3) (f : BitVec 11) : pmDeltaOf 0 fms f = 0 := by
  have hq : quarterStep 0 = 0 := by decide
  rw [pmDeltaOf_eq, hq, pmBase_zero, pmSum_zero]
  rfl

theorem amDelta_of_am_zero {s : Chip} (h : s.lfo.am = 0) (c : ChIx) : s.amDelta c = 0 := by
  rw [amDelta_eq, h, Nat.zero_div]

theorem pmDelta_of_step_zero {s : Chip} (h : s.lfo.step = 0) (c : ChIx) (o : OpIx) : s.pmDelta c o = 0 := by
  rw [Chip.pmDelta, h, pmDeltaOf_zero]

/-- A register word moves the LFO as its instruction says. -/
theorem exec_regWord_lfo {i : Instr} {s t : State} (hi : i.kind ≠ .port) (h : exec i s = .next t) :
    t.chip.lfo = i.onLfo s.chip.lfo := by
  obtain ⟨k, hk, hframe⟩ := exec_regWord hi s
  cases hk.symm.trans h
  exact congrArg Chip.lfo hframe

/-- A disabled LFO stands still. -/
theorem ticks_lfo_of_disabled (n : Nat) {s : Chip} (hen : s.lfo.enable = false) : (s.ticks n).1.lfo = s.lfo :=
  ticks_invariant (P := fun u => u.lfo = s.lfo)
    (fun u hu => by rw [nativeTick_lfo, hu, lfoTick_of_disabled hen]) n s rfl

/-- Settles O39: the write clears the counters, the ticks keep them, and at step 0 neither delta is left. -/
theorem disabledLfoModulatesNothing : Obligations.DisabledLfoModulatesNothing := by
  intro f s t h n
  have hwrite : t.chip.lfo = ⟨false, f, 0, 0, 0⟩ := exec_regWord_lfo (by simp [Instr.kind]) h
  have hlfo : (t.chip.ticks n).1.lfo = ⟨false, f, 0, 0, 0⟩ :=
    (ticks_lfo_of_disabled n (congrArg Lfo.enable hwrite)).trans hwrite
  have ham := congrArg Lfo.am hlfo
  have hstep := congrArg Lfo.step hlfo
  exact ⟨congrArg Lfo.sub hlfo, hstep, ham, amDelta_of_am_zero ham, pmDelta_of_step_zero hstep⟩

end Sys2Proof.Machine
end

section
/-! PROOFS. The timers and the CSM auto-trigger (45_timers_csm.md): the cases of each timer's step, the two timers over any number of
ticks from a load edge, and the timer step on the operators of channel 2. -/

namespace Sys2Proof.Machine

/-! ## Timer A's step (R250, R252) -/

section
variable {a : TimerA}

theorem timerA_overflows_iff : a.overflows = true ↔ a.load = true ∧ a.cnt.toNat + 1 ≥ 1024 - a.period.toNat := by
  rw [TimerA.overflows, Bool.and_eq_true, decide_eq_true_iff]

theorem timerATick_of_unloaded (hload : a.load = false) : a.tick = a := if_neg (by simp [hload])

theorem timerATick_of_overflows (hover : a.overflows = true) : a.tick = { a with cnt := 0, ov := a.ov || a.enable } := by
  rw [TimerA.tick, if_pos (timerA_overflows_iff.mp hover).1]
  exact if_pos hover

theorem timerATick_of_not_overflows (hload : a.load = true) (hover : a.overflows = false) :
    a.tick = { a with cnt := a.cnt + 1 } := by
  rw [TimerA.tick, if_pos hload]
  exact if_neg (by simp [hover])

end

/-! ## Timer B's step (R250, R253) -/

section
variable {b : TimerB}

theorem timerBTick_of_unloaded (hload : b.load = false) : b.tick = b := if_neg (by simp [hload])

theorem timerBTick_of_no_wrap (hload : b.load = true) (hsub : b.sub.toNat < 15) :
    b.tick = { b with sub := b.sub + 1 } := by
  have hwrap : b.sub + 1 ≠ 0 := by bv_omega
  rw [TimerB.tick, if_pos hload]
  exact if_neg hwrap

/-- The prescaler wraps from 15, and the count takes one step (R253). -/
theorem timerBTick_of_wrap (hload : b.load = true) (hsub : b.sub.toNat = 15) :
    b.tick = if b.cnt.toNat + 1 ≥ 256 - b.period.toNat then { b with sub := 0, cnt := 0, ov := b.ov || b.enable }
      else { b with sub := 0, cnt := b.cnt + 1 } := by
  have hwrap : b.sub + 1 = 0 := by bv_omega
  rw [TimerB.tick, if_pos hload]
  dsimp only
  rw [if_pos hwrap, hwrap]
  rfl

theorem timerBTick_of_overflow (hload : b.load = true) (hsub : b.sub.toNat = 15)
    (hcnt : b.cnt.toNat + 1 ≥ 256 - b.period.toNat) : b.tick = { b with sub := 0, cnt := 0, ov := b.ov || b.enable } :=
  (timerBTick_of_wrap hload hsub).trans (if_pos hcnt)

theorem timerBTick_of_count (hload : b.load = true) (hsub : b.sub.toNat = 15)
    (hcnt : b.cnt.toNat + 1 < 256 - b.period.toNat) : b.tick = { b with sub := 0, cnt := b.cnt + 1 } :=
  (timerBTick_of_wrap hload hsub).trans (if_neg (Nat.not_le.mpr hcnt))

end

/-! ## The timer step on the operators (R251, R257, R258) -/

/-- After a timer step a release is pending exactly where Timer A triggered CSM in it: an earlier one has been served. -/
theorem timerStep_csmPending (s : Chip) :
    s.timerStep.csmPending = true ↔ s.timerA.overflows = true ∧ s.ch3Mode = .csm := by
  unfold Chip.timerStep Chip.timerAStep
  rw [timerBStep_csmPending, csmRelease_eq]
  dsimp only
  split
  case isTrue htrigger => exact iff_of_true rfl htrigger
  case isFalse htrigger => exact iff_of_false Bool.false_ne_true htrigger

theorem nativeTick_csmPending (s : Chip) :
    s.nativeTick.1.csmPending = true ↔ s.timerA.overflows = true ∧ s.ch3Mode = .csm := by
  rw [nativeTick_eq]
  exact timerStep_csmPending s

/-- Without an overflow no release is pending after a tick, in any mode. -/
theorem nativeTick_csmPending_of_not_overflows {s : Chip} (hover : s.timerA.overflows = false) :
    s.nativeTick.1.csmPending = false := by
  rw [← Bool.not_eq_true, nativeTick_csmPending, hover]
  exact fun h => Bool.false_ne_true h.1

/-- Settles O37: channel 2 and the others by `timerStep_op` after `csmRelease_op`, the pending state by `timerStep_csmPending`, the
other fields by `timerStep_eq`. -/
theorem csmReleasesThenTriggers : Obligations.CsmReleasesThenTriggers := by
  refine fun s => ⟨fun o => ?channel2, fun c o hc => ?others, timerStep_csmPending s, timerStep_eq s⟩
  case channel2 => simp only [timerStep_op, csmRelease_op, true_and]
  case others => simp only [timerStep_op, csmRelease_op, hc, false_and, if_false]

/-! ## One tick of the timers (R250, R252, R253) -/

/-- Settles O35: each timer by the cases of its step, the pending release by `nativeTick_csmPending`. -/
theorem timersCountInATick : Obligations.TimersCountInATick := by
  intro s
  dsimp only
  rw [nativeTick_timerA, nativeTick_timerB]
  refine ⟨timerA_overflows_iff, fun hload => ?heldA, fun hload hcnt => ?overflowA, fun hload hcnt => ?countA,
    timerBTick_of_unloaded, timerBTick_of_no_wrap, timerBTick_of_overflow, timerBTick_of_count⟩
  case heldA =>
    have hover : s.timerA.overflows = false := by rw [TimerA.overflows, hload, Bool.false_and]
    exact ⟨timerATick_of_unloaded hload, nativeTick_csmPending_of_not_overflows hover⟩
  case overflowA =>
    have hover := timerA_overflows_iff.mpr ⟨hload, hcnt⟩
    exact ⟨timerATick_of_overflows hover, (nativeTick_csmPending s).trans (and_iff_right hover)⟩
  case countA =>
    have hover : s.timerA.overflows = false := by
      rw [← Bool.not_eq_true, timerA_overflows_iff]
      exact fun h => Nat.not_le.mpr hcnt h.2
    exact ⟨timerATick_of_not_overflows hload hover, nativeTick_csmPending_of_not_overflows hover⟩

/-! ## Counting in periods -/

section
variable {n p : Nat}

theorem succ_mod_of_le (hp : 0 < p) (h : p ≤ n % p + 1) : (n + 1) % p = 0 := by
  have hlt := Nat.mod_lt n hp
  rw [← Nat.mod_add_mod, show n % p + 1 = p by omega, Nat.mod_self]

theorem succ_mod_of_lt (h : n % p + 1 < p) : (n + 1) % p = n % p + 1 := by
  rw [← Nat.mod_add_mod, Nat.mod_eq_of_lt h]

/-- The overflow flag `n` steps of period `p` after the count was 0: it is set from the first overflow on where it is enabled, and
nothing clears it (R250, R252, R253). -/
def flagAfter (ov enable : Bool) (p n : Nat) : Bool := ov || (enable && decide (p ≤ n))

theorem flagAfter_zero (ov enable : Bool) (hp : 0 < p) : flagAfter ov enable p 0 = ov := by
  simp [flagAfter, Nat.ne_of_gt hp]

theorem flagAfter_succ_of_le (ov enable : Bool) (h : p ≤ n % p + 1) :
    flagAfter ov enable p (n + 1) = (flagAfter ov enable p n || enable) := by
  have hdone : p ≤ n + 1 := h.trans (Nat.succ_le_succ (Nat.mod_le n p))
  cases enable <;> simp [flagAfter, hdone]

theorem flagAfter_succ_of_lt (ov enable : Bool) (h : n % p + 1 < p) :
    flagAfter ov enable p (n + 1) = flagAfter ov enable p n := by
  have hsame : p ≤ n + 1 ↔ p ≤ n := by
    refine ⟨fun hle => Nat.le_of_not_lt fun hlt => ?_, Nat.le_succ_of_le⟩
    rw [Nat.mod_eq_of_lt hlt] at h
    omega
  simp only [flagAfter, hsame]

end

/-! ## Any number of ticks from a load edge (R255, R261) -/

theorem ticks_timerA (n : Nat) (s : Chip) : (s.ticks n).1.timerA = TimerA.tick^[n] s.timerA := by
  induction n generalizing s with
  | zero => rfl
  | succ n ih =>
    rw [Function.iterate_succ_apply, ← nativeTick_timerA]
    exact ih _

theorem ticks_timerB (n : Nat) (s : Chip) : (s.ticks n).1.timerB = TimerB.tick^[n] s.timerB := by
  induction n generalizing s with
  | zero => rfl
  | succ n ih =>
    rw [Function.iterate_succ_apply, ← nativeTick_timerB]
    exact ih _

/-- Timer A, `n` steps after its count was 0: the count runs through its period, and from the first overflow on the flag is set where
it is enabled. -/
def TimerA.counted (a : TimerA) (n : Nat) : TimerA :=
  { a with
    cnt := BitVec.ofNat 10 (n % (1024 - a.period.toNat))
    ov := flagAfter a.ov a.enable (1024 - a.period.toNat) n }

/-- Timer B, `n` steps after its count and prescaler were 0: the count sees every sixteenth step. -/
def TimerB.counted (b : TimerB) (n : Nat) : TimerB :=
  { b with
    sub := BitVec.ofNat 4 n
    cnt := BitVec.ofNat 8 (n / 16 % (256 - b.period.toNat))
    ov := flagAfter b.ov b.enable (256 - b.period.toNat) (n / 16) }

section
variable {a : TimerA} {n : Nat}

theorem timerA_counted_cnt : (a.counted n).cnt.toNat = n % (1024 - a.period.toNat) := by
  have hlt := Nat.mod_lt n (show 0 < 1024 - a.period.toNat by omega)
  rw [TimerA.counted, BitVec.toNat_ofNat, Nat.mod_eq_of_lt (by omega)]

theorem timerA_counted_zero (hcnt : a.cnt = 0) : a.counted 0 = a := by
  have hzero : a.counted 0 = { a with cnt := 0 } := by
    rw [TimerA.counted, Nat.zero_mod, flagAfter_zero _ _ (by omega)]
    rfl
  rw [hzero, ← hcnt]

theorem timerA_tick_counted (hload : a.load = true) : (a.counted n).tick = a.counted (n + 1) := by
  have hover : (a.counted n).overflows = true ↔ 1024 - a.period.toNat ≤ n % (1024 - a.period.toNat) + 1 := by
    rw [timerA_overflows_iff, timerA_counted_cnt]
    exact and_iff_right hload
  by_cases hend : 1024 - a.period.toNat ≤ n % (1024 - a.period.toNat) + 1
  · rw [timerATick_of_overflows (hover.mpr hend)]
    unfold TimerA.counted
    rw [succ_mod_of_le (by omega) hend, flagAfter_succ_of_le _ _ hend]
    rfl
  · have hlt := Nat.not_le.mp hend
    rw [timerATick_of_not_overflows (a := a.counted n) hload (Bool.eq_false_iff.mpr (mt hover.mp hend))]
    unfold TimerA.counted
    rw [succ_mod_of_lt hlt, flagAfter_succ_of_lt _ _ hlt, BitVec.ofNat_add]
    rfl

theorem timerA_iterate_tick (hload : a.load = true) (hcnt : a.cnt = 0) (n : Nat) : TimerA.tick^[n] a = a.counted n := by
  induction n with
  | zero => exact (timerA_counted_zero hcnt).symm
  | succ n ih => rw [Function.iterate_succ_apply', ih, timerA_tick_counted hload]

end

section
variable {b : TimerB} {n : Nat}

theorem timerB_counted_cnt : (b.counted n).cnt.toNat = n / 16 % (256 - b.period.toNat) := by
  have hlt := Nat.mod_lt (n / 16) (show 0 < 256 - b.period.toNat by omega)
  rw [TimerB.counted, BitVec.toNat_ofNat, Nat.mod_eq_of_lt (by omega)]

theorem timerB_counted_sub : (b.counted n).sub.toNat = n % 16 := BitVec.toNat_ofNat n 4

theorem timerB_counted_zero (hcnt : b.cnt = 0) (hsub : b.sub = 0) : b.counted 0 = b := by
  have hzero : b.counted 0 = { b with cnt := 0, sub := 0 } := by
    rw [TimerB.counted, Nat.zero_div, Nat.zero_mod, flagAfter_zero _ _ (by omega)]
    rfl
  rw [hzero, ← hcnt, ← hsub]

theorem timerB_tick_counted (hload : b.load = true) : (b.counted n).tick = b.counted (n + 1) := by
  by_cases hwrap : n % 16 = 15
  · have hdiv : (n + 1) / 16 = n / 16 + 1 := by omega
    have hzero : BitVec.ofNat 4 (n + 1) = 0#4 := by bv_omega
    have hsub : (b.counted n).sub.toNat = 15 := timerB_counted_sub.trans hwrap
    by_cases hend : 256 - b.period.toNat ≤ n / 16 % (256 - b.period.toNat) + 1
    · rw [timerBTick_of_overflow (b := b.counted n) hload hsub (by rwa [timerB_counted_cnt])]
      unfold TimerB.counted
      rw [hzero, hdiv, succ_mod_of_le (by omega) hend, flagAfter_succ_of_le _ _ hend]
      rfl
    · have hlt := Nat.not_le.mp hend
      rw [timerBTick_of_count (b := b.counted n) hload hsub (by rwa [timerB_counted_cnt])]
      unfold TimerB.counted
      rw [hzero, hdiv, succ_mod_of_lt hlt, flagAfter_succ_of_lt _ _ hlt, BitVec.ofNat_add]
      rfl
  · have hdiv : (n + 1) / 16 = n / 16 := by omega
    have hsub : (b.counted n).sub.toNat < 15 := by
      rw [timerB_counted_sub]
      omega
    rw [timerBTick_of_no_wrap (b := b.counted n) hload hsub]
    unfold TimerB.counted
    rw [hdiv, BitVec.ofNat_add]
    rfl

theorem timerB_iterate_tick (hload : b.load = true) (hcnt : b.cnt = 0) (hsub : b.sub = 0) (n : Nat) :
    TimerB.tick^[n] b = b.counted n := by
  induction n with
  | zero => exact (timerB_counted_zero hcnt hsub).symm
  | succ n ih => rw [Function.iterate_succ_apply', ih, timerB_tick_counted hload]

end

/-- A load edge starts Timer A from count 0 (R255). -/
theorem timerA_control_of_load_edge {a : TimerA} (hload : a.load = false) (reset enable : Bool) :
    a.control reset enable true = { a with cnt := 0, load := true, enable := enable, ov := ovAfterReset reset a.ov } := by
  rw [TimerA.control, hload]
  rfl

/-- A load edge starts Timer B from count 0 and prescaler 0 (R255). -/
theorem timerB_control_of_load_edge {b : TimerB} (hload : b.load = false) (reset enable : Bool) :
    b.control reset enable true =
      { b with cnt := 0, sub := 0, load := true, enable := enable, ov := ovAfterReset reset b.ov } := by
  rw [TimerB.control, hload]
  rfl

/-- Settles O36: a load edge starts the counters from 0, and from there the ticks count as `timerA_iterate_tick` and
`timerB_iterate_tick` say. -/
theorem timerPeriodsAfterLoadEdge : Obligations.TimerPeriodsAfterLoadEdge := by
  intro m rB rA eB eA lB lA s t h
  have hA : t.chip.timerA = s.chip.timerA.control rA eA lA := congrArg Visible.timerA (exec_visible h)
  have hB : t.chip.timerB = s.chip.timerB.control rB eB lB := congrArg Visible.timerB (exec_visible h)
  refine ⟨fun hset hclear n => ?timerA, fun hset hclear n => ?timerB⟩
  case timerA =>
    rw [hset, timerA_control_of_load_edge hclear] at hA
    rw [ticks_timerA, hA, timerA_iterate_tick rfl rfl]
    exact ⟨timerA_counted_cnt, rfl⟩
  case timerB =>
    rw [hset, timerB_control_of_load_edge hclear] at hB
    have hfirst : 16 * (256 - s.chip.timerB.period.toNat) ≤ n ↔ 256 - s.chip.timerB.period.toNat ≤ n / 16 := by omega
    rw [ticks_timerB, hB, timerB_iterate_tick rfl rfl rfl]
    simp only [hfirst]
    exact ⟨timerB_counted_sub, timerB_counted_cnt, rfl⟩

end Sys2Proof.Machine
end

section
/-! PROOFS. The port operations (46_register_interface.md R270..R273): the latches, the data writes, the two kinds of status read. -/

namespace Sys2Proof

/-- The number a slice from bit 0 is. -/
theorem lowSlice_toNat {n : Nat} (x : BitVec n) (len : Nat) : (x.extractLsb' 0 len).toNat = x.toNat % 2 ^ len := by
  rw [slice_toNat, pow_zero, Nat.div_one]

end Sys2Proof

namespace Sys2Proof.Machine

/-! ## Address and data writes (R270, R272) -/

/-- Settles O15: the two words by `decode_encode`; a data write keeps the latches, as the visible machine says. -/
theorem addressWriteChangesOnlyItsLatch : Obligations.AddressWriteChangesOnlyItsLatch := by
  refine ⟨fun v => ⟨decode_encode (.aw0 v) rfl, decode_encode (.aw2 v) rfl⟩, fun _ _ => rfl, fun _ _ => rfl,
    fun v s t h => ?latches⟩
  case latches =>
    rcases h with h | h <;>
      exact ⟨congrArg Visible.addrLatch0 (exec_visible h), congrArg Visible.addrLatch1 (exec_visible h)⟩

/-- A register word keeps the busy window. -/
theorem exec_decodeReg_busyUntil (p : Part) (a d : Byte) (s : State) :
    ∃ t, exec (decodeReg (regWord p a d)) s = .next t ∧ t.chip.busyUntil = s.chip.busyUntil := by
  obtain ⟨t, ht, -⟩ := exec_next (decodeReg (regWord p a d)) s
  exact ⟨t, ht, congrArg Visible.busyUntil (exec_regWord_visible (decodeReg_kind_ne_port p a d) ht)⟩

/-- Settles O16: a data write is its register word in the armed state, and the word keeps the window it finds. -/
theorem dataWritePerformsItsRegisterWord : Obligations.DataWritePerformsItsRegisterWord := by
  refine fun v s => ⟨⟨decode_encode (.dw1 v) rfl, decode_encode (.dw3 v) rfl⟩, ?part0, ?part1⟩
  case part0 =>
    obtain ⟨t, ht, hbusy⟩ := exec_decodeReg_busyUntil .part0 s.chip.addrLatch0 v (s.onChip (Chip.armBusy Config.busySamples))
    exact ⟨t, (exec_dw1 v s).trans ht, hbusy, ht⟩
  case part1 =>
    obtain ⟨t, ht, hbusy⟩ := exec_decodeReg_busyUntil .part1 s.chip.addrLatch1 v (s.onChip (Chip.armBusy Config.busySamples))
    exact ⟨t, (exec_dw3 v s).trans ht, hbusy, ht⟩

/-- Settles O18: the rows by `exec_of_isIgnoreRow`, the words by the kind of their address. -/
theorem ignoredWordsChangeNothing : Obligations.IgnoredWordsChangeNothing :=
  ⟨fun _ s h => exec_of_isIgnoreRow h s, isIgnoreRow_decodeReg⟩

/-! ## Status reads (R271, R273) -/

/-- The flags in the status byte (10_state.md R56). -/
theorem status_flags (s : Chip) :
    s.status.getLsbD 7 = s.busy ∧ s.status.getLsbD 1 = s.timerB.ov ∧ s.status.getLsbD 0 = s.timerA.ov := by
  simp only [Chip.status, BitVec.getLsbD_append]
  simp

theorem status_reservedBit (s : Chip) {k : Nat} (h2 : 2 ≤ k) (h6 : k ≤ 6) : s.status.getLsbD k = false := by
  simp only [Chip.status, BitVec.getLsbD_append]
  interval_cases k <;> simp

/-- Settles O19: both ports answer and cache the status byte, which holds the flags in its bits. -/
theorem liveStatusReadReturnsAndCaches : Obligations.LiveStatusReadReturnsAndCaches := by
  refine ⟨⟨decode_encode .rd0 rfl, decode_encode .rd2 rfl⟩, fun i s hi => ?read⟩
  obtain ⟨hbusy, hB, hA⟩ := status_flags s.chip
  refine ⟨s.chip.status, liveStatusRead s, ?answers, rfl, rfl, rfl, rfl, ?busy, hB, hA, fun k => status_reservedBit s.chip⟩
  case answers => rcases hi with rfl | rfl <;> rfl
  case busy => rw [hbusy, Chip.busy, decide_eq_true_iff]

/-- The rule's comparison on integers is the model's on naturals (log 16). -/
theorem cachedStatus_eq (decay : Nat) (s : Chip) :
    s.cachedStatus decay = if (s.sampleCount : Int) - s.statusTime < decay then s.statusCache else 0 := by
  have h : s.sampleCount < s.statusTime + decay ↔ (s.sampleCount : Int) - s.statusTime < decay := by omega
  simp only [Chip.cachedStatus, h]

/-- A cached status read, on either port, answers the cached byte. -/
theorem exec_cachedRead {i : Instr} (hi : i = .rd1 ∨ i = .rd3) (s : State) :
    exec i s = .next { s with reply := .byte (s.chip.cachedStatus Config.statusDecaySamples) } := by
  rcases hi with rfl | rfl <;> rfl

/-- Settles O20: `exec_cachedRead` with the byte of `cachedStatus_eq`; at power-on the cache itself is 0. -/
theorem cachedStatusReadReturnsCache : Obligations.CachedStatusReadReturnsCache := by
  refine ⟨⟨decode_encode .rd1 rfl, decode_encode .rd3 rfl⟩, fun i s hi => ?fresh, fun i hi => ?powerOn⟩
  case fresh => rw [exec_cachedRead hi, cachedStatus_eq]
  case powerOn =>
    have hbyte : State.reset.chip.cachedStatus Config.statusDecaySamples = 0 := ite_self 0
    rw [exec_cachedRead hi, hbyte]

end Sys2Proof.Machine
end

section
/-! PROOFS. The global registers (46_register_interface.md R275..R285), `$22` to `$2B` of part 0. -/

namespace Sys2Proof.Machine

/-! ## LFO (R275) -/

/-- Settles O22: a write that enables keeps the counters, one that disables clears them. -/
theorem lfoControlWrite : Obligations.LfoControlWrite := by
  refine ⟨fun d => decodeReg_global d rfl, fun en f s => ⟨_, rfl, ⟨rfl, rfl, rfl⟩, ?write⟩⟩
  cases en with
  | true => exact ⟨rfl, rfl, rfl, nofun, fun _ => ⟨rfl, rfl, rfl⟩⟩
  | false => exact ⟨rfl, rfl, rfl, fun _ => ⟨rfl, rfl, rfl⟩, nofun⟩

/-! ## Timers (R276..R279) -/

theorem periodAWithHigh_toNat (period : BitVec 10) (hi : BitVec 8) :
    (periodAWithHigh period hi).toNat = hi.toNat * 4 + period.toNat % 4 := by
  rw [periodAWithHigh, append_toNat, slice_toNat]
  omega

theorem periodAWithLow_toNat (period : BitVec 10) (lo : BitVec 2) :
    (periodAWithLow period lo).toNat = period.toNat / 4 * 4 + lo.toNat := by
  rw [periodAWithLow, append_toNat, slice_toNat]
  omega

/-- Settles O23: each write by its definition, Timer A's two periods by the number they are. -/
theorem timerPeriodWrites : Obligations.TimerPeriodWrites :=
  ⟨fun d => ⟨decodeReg_global d rfl, decodeReg_global d rfl, decodeReg_global d rfl⟩,
    fun hi s => ⟨_, rfl, periodAWithHigh_toNat s.chip.timerA.period hi⟩,
    fun lo s => ⟨_, rfl, periodAWithLow_toNat s.chip.timerA.period lo⟩, fun _ _ => rfl⟩

/-- The mode a `$27` byte selects, by the value of its two high bits (30_encoding.md R87). -/
theorem modeOf_modeBits (d : Byte) : modeOf (Field.modeBits d) =
    if d.toNat / 64 = 0 then .normal else if d.toNat / 64 = 2 then .csm else .special := by
  revert d
  decide

theorem ovAfterReset_eq (reset ov : Bool) : ovAfterReset reset ov = if reset = true then false else ov := by
  cases reset <;> simp [ovAfterReset]

/-- The counter of a timer after a control write: cleared at the load edge alone (45_timers_csm.md R255). -/
theorem loadEdge_eq {α : Type} (load old : Bool) (x y : α) :
    (if (load && !old) = true then x else y) = if load = true ∧ old = false then x else y := by
  simp

/-- Settles O24: the operands bit by bit, each timer by its own control write; in Normal mode no operator of channel 2 has a source of
its own. -/
theorem timerControlWrite : Obligations.TimerControlWrite := by
  refine ⟨fun d => ?operands, fun m rB rA eB eA lB lA s => ⟨_, rfl, ⟨rfl, rfl, rfl⟩, rfl,
    rfl, rfl, rfl, loadEdge_eq _ _ _ _, ovAfterReset_eq _ _,
    rfl, rfl, rfl, loadEdge_eq _ _ _ _, loadEdge_eq _ _ _ _, ovAfterReset_eq _ _, fun hm o => ?source⟩⟩
  case operands =>
    rw [← modeOf_modeBits]
    exact decodeReg_global d rfl
  case source => exact fSrc_channel fun _ hne => absurd hm hne

/-! ## Keys (R283) -/

/-- One operator's part of a key write: it acts where the key bit differs from the latch. -/
theorem keyWrite_eq (x : Operator) (key : Bool) (kc : BitVec 5) : x.keyWrite key kc =
    if key = true ∧ x.keyLatch = false then { x with keyLatch := true }.keyOn kc
    else if key = false ∧ x.keyLatch = true then { x with keyLatch := false }.keyOff
    else x := by
  unfold Operator.keyWrite
  cases key <;> cases x.keyLatch <;> rfl

/-- Bit `o - 1` of the key field is the key of operator `o` (30_encoding.md R88). -/
theorem keyBit_eq (keys : BitVec 4) (o : OpIx) : keyBit keys o = keys.getLsbD (o.number - 1) := by
  cases o <;> rfl

/-- The channel a key write selects, as a number (R88). -/
theorem keyChan_index {sel : BitVec 3} {c : ChIx} (h : keyChan sel = some c) :
    c.index = sel.toNat % 4 + 3 * (sel.toNat / 4) := by
  revert sel
  cases c <;> decide

theorem chsel_toNat (d : Byte) : (Field.chsel d).toNat = d.toNat % 8 := lowSlice_toNat d 3

theorem keys_eq (d : Byte) : Field.keys d = BitVec.ofNat 4 (d.toNat / 16) := BitVec.eq_of_toNat_eq (slice_toNat d 4 4)

theorem keyChan_eq_none_iff (d : Byte) : keyChan (Field.chsel d) = none ↔ d.toNat % 4 = 3 := by
  rw [keyChan_chsel_eq_none_iff, BitVec.toNat_eq, lowSlice_toNat]
  rfl

/-- Settles O25: the write by `keyWrite_eq` at each operator of its channel, the operands by the channel select. -/
theorem keyWriteActsOnLatchChanges : Obligations.KeyWriteActsOnLatchChanges := by
  refine ⟨fun c keys s => ⟨_, rfl, ⟨rfl, rfl, rfl⟩, rfl, fun c' o hc => ?others, fun o => ?channel⟩, fun _ _ => rfl,
    fun d => ?operands⟩
  case others => exact (mapChanOps_op s.chip c c' o _).trans (if_neg hc)
  case channel =>
    intro x
    rw [← keyBit_eq, ← keyWrite_eq]
    exact (mapChanOps_op s.chip c c o _).trans (if_pos rfl)
  case operands =>
    rw [decodeReg_global d (a := 0x28) rfl]
    cases hc : keyChan (Field.chsel d) with
    | none =>
      rw [if_pos ((keyChan_eq_none_iff d).mp hc)]
      exact ⟨d.extractLsb' 2 6, by simp [decodeGlobal, hc]⟩
    | some c =>
      rw [if_neg (fun h => nomatch hc.symm.trans ((keyChan_eq_none_iff d).mpr h)), ← keys_eq]
      refine ⟨c, ?_, by simp [decodeGlobal, hc]⟩
      rw [keyChan_index hc, chsel_toNat]
      omega

/-! ## DAC (R284, R285) -/

/-- Settles O26: both words decode by their address, both writes by their definition. -/
theorem dacRegisterWrites : Obligations.DacRegisterWrites :=
  ⟨fun d => ⟨decodeReg_global d rfl, decodeReg_global d rfl⟩, fun _ _ => rfl, fun _ _ => rfl⟩

end Sys2Proof.Machine
end

section
/-! PROOFS. The operator and channel registers (46_register_interface.md R286..R300): which operator or channel an address names, and
that a write changes that one alone. -/

namespace Sys2Proof

/-! ## What an address names (30_encoding.md R83, R84) -/

theorem group_toNat (a : Byte) : (Field.group a).toNat = a.toNat / 16 := by
  rw [Field.group, slice_toNat]
  omega

theorem slot_toNat (a : Byte) : (Field.slot a).toNat = a.toNat / 4 % 4 := slice_toNat a 2 2

theorem chanGroup_toNat (a : Byte) : (Field.chanGroup a).toNat = a.toNat / 4 := by
  rw [Field.chanGroup, slice_toNat]
  omega

theorem chan_toNat (a : Byte) : (Field.chan a).toNat = a.toNat % 4 := lowSlice_toNat a 2

theorem chan_ne_three {a : Byte} (h : a.toNat % 4 ≠ 3) : Field.chan a ≠ 3 := by
  rwa [Ne, BitVec.toNat_eq, chan_toNat]

theorem slotOp_number (s : BitVec 2) : (slotOp s).number = [1, 3, 2, 4].getD s.toNat 0 := by
  revert s
  decide

theorem chanOf_index {p : Part} {k : BitVec 2} {c : ChIx} (h : chanOf p k = some c) :
    c.index = 3 * (partBit p).toNat + k.toNat := by
  revert k
  cases p <;> cases c <;> decide

/-- An address whose low bits are not 3 names a channel of its part. -/
theorem exists_chanOf (p : Part) {a : Byte} (h : a.toNat % 4 ≠ 3) :
    ∃ c, chanOf p (Field.chan a) = some c ∧ c.index = 3 * (partBit p).toNat + a.toNat % 4 := by
  obtain ⟨c, hc⟩ := Option.ne_none_iff_exists'.mp (mt (chanOf_eq_none_iff p _).mp (chan_ne_three h))
  exact ⟨c, hc, chan_toNat a ▸ chanOf_index hc⟩

/-- An address whose low bits are not 3 names an operator of the override registers. -/
theorem exists_spOf {a : Byte} (h : a.toNat % 4 ≠ 3) : ∃ o, spOf (Field.chan a) = some o :=
  Option.ne_none_iff_exists'.mp (mt (spOf_eq_none_iff _).mp (chan_ne_three h))

/-- A register word of the operators' addresses. -/
theorem decodeReg_operatorAddr (p : Part) {a : Byte} (d : Byte) (h30 : 0x30 ≤ a.toNat) (h9F : a.toNat ≤ 0x9F) :
    decodeReg (regWord p a d) = decodeOperator p a d := by
  have hg := group_toNat a
  have h := decodeReg_operator p (g := Field.group a) (Field.slot a) (Field.chan a) d (by omega) (by omega)
  rwa [operatorAddr_fields] at h

/-- A register word of a channel group, by the group's number and the channel bits. -/
theorem decodeReg_channelGroup (p : Part) {a : Byte} {g : BitVec 6} (d : Byte) (ha : a.toNat / 4 = g.toNat)
    (h28 : 0x28 ≤ g.toNat) (h2D : g.toNat ≤ 0x2D) :
    decodeReg (regWord p a d) = decodeChannel p (g ++ Field.chan a) d := by
  have hg : Field.chanGroup a = g := BitVec.eq_of_toNat_eq ((chanGroup_toNat a).trans ha)
  rw [← decodeReg_channel p (Field.chan a) d h28 h2D, ← hg, channelAddr_fields]

end Sys2Proof

namespace Sys2Proof.Machine

/-! ## One operator, one channel -/

/-- A write to one operator changes that operator alone. -/
theorem onlyOp_modOp (c : ChIx) (o : OpIx) (f : Operator → Operator) (s : State) :
    OnlyOp c o (f (s.chip.op c o)) s (s.onChip fun k => k.modOp c o f) :=
  ⟨⟨rfl, rfl, rfl⟩, rfl, (modOp_op s.chip c c o o f).trans (if_pos ⟨rfl, rfl⟩),
    fun c' o' h => (modOp_op s.chip c c' o o' f).trans (if_neg h)⟩

/-- A write to one channel changes that channel alone. -/
theorem onlyChan_modChan (c : ChIx) (f : Channel → Channel) (s : State) :
    OnlyChan c (f (s.chip.chan c)) s (s.onChip fun k => k.modChan c f) :=
  ⟨⟨rfl, rfl, rfl⟩, rfl, (modChan_chan s.chip c c f).trans (if_pos rfl),
    fun c' h => (modChan_chan s.chip c c' f).trans (if_neg h)⟩

/-! ## Operator registers (R286..R293) -/

/-- Settles O27: the address by its group, slot and channel bits; each write by `onlyOp_modOp`. -/
theorem operatorRegisterWrites : Obligations.OperatorRegisterWrites := by
  refine ⟨fun p a d h30 h9F => ?decoding, ⟨by decide, fun x hrr => ?releaseRate⟩, fun c o s => ?writes⟩
  case decoding =>
    split
    case isTrue h => exact exec_decodeReg_of_ignoredClass (by simp [ignoredClass]; omega)
    case isFalse h =>
      obtain ⟨c, hc, hindex⟩ := exists_chanOf p h
      have hg := group_toNat a
      refine ⟨c, slotOp (Field.slot a), hindex, slot_toNat a ▸ slotOp_number (Field.slot a), ?_⟩
      rw [decodeReg_operatorAddr p d h30 h9F, decodeOperator, ← hg]
      rcases operatorGroup_cases (g := Field.group a) (by omega) (by omega) with h | h | h | h | h | h | h <;> rw [h, hc] <;> rfl
  case releaseRate => simp [Operator.rate5, hrr]
  case writes =>
    exact ⟨fun _ _ => ⟨_, rfl, onlyOp_modOp c o _ s⟩, fun _ => ⟨_, rfl, onlyOp_modOp c o _ s⟩,
      fun _ _ => ⟨_, rfl, onlyOp_modOp c o _ s⟩, fun _ _ => ⟨_, rfl, onlyOp_modOp c o _ s⟩,
      fun _ => ⟨_, rfl, onlyOp_modOp c o _ s⟩, fun _ _ => ⟨_, rfl, onlyOp_modOp c o _ s⟩,
      fun _ => ⟨_, rfl, onlyOp_modOp c o _ s⟩⟩

/-! ## Frequencies (R294..R298) -/

theorem fnumFrom_toNat (latch : BitVec 6) (lo : Byte) : (fnumFrom latch lo).toNat = latch.toNat % 8 * 256 + lo.toNat := by
  rw [fnumFrom, append_toNat, lowSlice_toNat]
  rfl

theorem blockFrom_toNat (latch : BitVec 6) : (blockFrom latch).toNat = latch.toNat / 8 := by
  rw [blockFrom, slice_toNat]
  omega

theorem hiLatch_toNat (block hi : BitVec 3) : (hiLatch block hi).toNat = block.toNat * 8 + hi.toNat := append_toNat block hi

/-- Settles O28: the words by their channel group; the low byte writes one channel from the latch, the high byte the latch. -/
theorem frequencyHalvesCombineOnLowWrite : Obligations.FrequencyHalvesCombineOnLowWrite := by
  refine ⟨fun p a d h => ?words, fun c lo s => ⟨_, _, _, rfl, onlyChan_modChan c _ s, fnumFrom_toNat _ lo, blockFrom_toNat _⟩,
    fun c b hi s => ⟨_, rfl, hiLatch_toNat b hi⟩⟩
  case words =>
    obtain ⟨c, hc, hindex⟩ := exists_chanOf p h
    refine ⟨c, hindex, fun ha => ?low, fun ha => ?high⟩
    case low =>
      rw [decodeReg_channelGroup p (g := 0x28) d ha (by decide) (by decide)]
      simp [decodeChannel, hc]
    case high =>
      rw [decodeReg_channelGroup p (g := 0x29) d ha (by decide) (by decide)]
      simp [decodeChannel, hc, Field.block, Field.fnumHi]

/-- Settles O29: the writes by their definition, on the operators the selector names; part 1 is of an ignored class. -/
theorem overrideFrequencyWrites : Obligations.OverrideFrequencyWrites := by
  refine ⟨fun o lo s => ⟨_, _, _, rfl, ⟨rfl, rfl, rfl⟩, rfl, ?fnum, ?block, fun o' ho => ⟨?otherFnum, ?otherBlock⟩,
      fnumFrom_toNat s.chip.ch3HiLatch lo, blockFrom_toNat s.chip.ch3HiLatch⟩,
    fun o b hi s => ⟨_, rfl, hiLatch_toNat b hi⟩, fun d => ⟨?op3, ?op1, ?op2⟩, fun a d hAC hAE => ?high,
    fun a d s hA8 hAF => ?part1⟩
  case fnum => exact (PerSp.get_set _ o o _).trans (if_pos rfl)
  case block => exact (PerSp.get_set _ o o _).trans (if_pos rfl)
  case otherFnum => exact (PerSp.get_set _ o o' _).trans (if_neg ho)
  case otherBlock => exact (PerSp.get_set _ o o' _).trans (if_neg ho)
  case op3 => exact decode_encode (.ch2OpFnumLo .op3 d) rfl
  case op1 => exact decode_encode (.ch2OpFnumLo .op1 d) rfl
  case op2 => exact decode_encode (.ch2OpFnumLo .op2 d) rfl
  case high =>
    obtain ⟨o, ho⟩ := exists_spOf (a := a) (by omega)
    have ha : a.toNat / 4 = 0x2B := by omega
    refine ⟨o, ?_⟩
    rw [decodeReg_channelGroup .part0 (g := 0x2B) d ha (by decide) (by decide)]
    simp [decodeChannel, ho, Field.block, Field.fnumHi]
  case part1 =>
    refine exec_decodeReg_of_ignoredClass ?_ s
    simp [ignoredClass]
    omega

/-! ## Algorithm, pan and sensitivities (R299, R300) -/

/-- Settles O30: the words by their channel group, each write by `onlyChan_modChan`. -/
theorem algorithmAndPanWrites : Obligations.AlgorithmAndPanWrites := by
  refine ⟨fun p a d h => ?words, fun c fb alg s => ⟨_, rfl, onlyChan_modChan c _ s⟩,
    fun c l r ams fms s => ⟨_, rfl, onlyChan_modChan c _ s⟩⟩
  case words =>
    obtain ⟨c, hc, hindex⟩ := exists_chanOf p h
    refine ⟨c, hindex, fun ha => ?fbAlg, fun ha => ?panAmsFms⟩
    case fbAlg =>
      rw [decodeReg_channelGroup p (g := 0x2C) d ha (by decide) (by decide)]
      simp [decodeChannel, hc, Field.fb, Field.alg]
    case panAmsFms =>
      rw [decodeReg_channelGroup p (g := 0x2D) d ha (by decide) (by decide)]
      simp [decodeChannel, hc, Field.panL, Field.panR, Field.ams, Field.fms]

end Sys2Proof.Machine
end

section
/-! PROOFS. The native tick's frame and the host adapter (47_tick_and_host.md R320..R328): what a tick keeps of the registers, what a
step does for the host's ticks and adapter calls, and how `Advance` spends its cycles. -/

namespace Sys2Proof.Machine

/-! ## What a tick keeps of an operator (R320) -/

/-- From `x` to `y` no register field and no key latch moved: at most the phase, the envelope and the history did. -/
def Operator.KeepsRegisters (x y : Operator) : Prop :=
  y = { x with
    ssgInv := y.ssgInv, phase := y.phase, egState := y.egState, level := y.level, hist0 := y.hist0, hist1 := y.hist1 }

theorem Operator.KeepsRegisters.trans {x y z : Operator} (h : x.KeepsRegisters y) (h' : y.KeepsRegisters z) : x.KeepsRegisters z := by
  unfold Operator.KeepsRegisters at *
  rw [h'] at *
  rw [h]

/-- The envelope is no register. -/
theorem keepsRegisters_of_onlyEnvelope {x y : Operator} (h : x.OnlyEnvelope y) : x.KeepsRegisters y := by
  unfold Operator.OnlyEnvelope at h
  unfold Operator.KeepsRegisters
  rw [h]

theorem keyOn_keepsRegisters (x : Operator) (kc : BitVec 5) : x.KeepsRegisters (x.keyOn kc) := by
  unfold Operator.KeepsRegisters
  rw [keyOn_eq]

section
variable (s : Chip) (c : ChIx) (o : OpIx)

theorem csmRelease_keepsRegisters : (s.op c o).KeepsRegisters (s.csmRelease.op c o) := by
  rw [csmRelease_op]
  split
  · exact keepsRegisters_of_onlyEnvelope (keyOff_onlyEnvelope _)
  · rfl

theorem timerStep_keepsRegisters : (s.op c o).KeepsRegisters (s.timerStep.op c o) := by
  rw [timerStep_op]
  split
  · exact (csmRelease_keepsRegisters s c o).trans (keyOn_keepsRegisters _ _)
  · exact csmRelease_keepsRegisters s c o

theorem beforeChannels_keepsRegisters : (s.op c o).KeepsRegisters (s.beforeChannels.op c o) := by
  rw [beforeChannels_op]
  split
  · exact (timerStep_keepsRegisters s c o).trans (keepsRegisters_of_onlyEnvelope (egStep_onlyEnvelope _ _ _))
  · exact timerStep_keepsRegisters s c o

/-- Timers, envelope and channels all leave an operator's settings to the host. -/
theorem nativeTick_keepsRegisters : (s.op c o).KeepsRegisters (s.nativeTick.1.op c o) := by
  rw [nativeTick_op]
  exact (beforeChannels_keepsRegisters s c o).trans rfl

end

/-! ## What a tick keeps of the LFO and the timers -/

/-- An LFO step moves the counters and the amplitude alone (44_lfo.md R231). -/
theorem lfoTick_eq (l : Lfo) : l.tick = { l with sub := l.tick.sub, step := l.tick.step, am := l.tick.am } := by
  unfold Lfo.tick
  dsimp only
  split
  · rfl
  · split <;> rfl

/-- Timer A's step moves the count and the flag alone (45_timers_csm.md R252). -/
theorem timerATick_eq (a : TimerA) : a.tick = { a with cnt := a.tick.cnt, ov := a.tick.ov } := by
  unfold TimerA.tick
  split
  · split <;> rfl
  · rfl

/-- Timer B's step moves the prescaler, the count and the flag alone (45_timers_csm.md R253). -/
theorem timerBTick_eq (b : TimerB) : b.tick = { b with sub := b.tick.sub, cnt := b.tick.cnt, ov := b.tick.ov } := by
  unfold TimerB.tick
  dsimp only
  split
  · split
    · split <;> rfl
    · rfl
  · rfl

/-- Settles O34: the operators by `nativeTick_keepsRegisters`, the other fields by the tick's frame and those of the LFO and timers. -/
theorem tickKeepsRegisterFields : Obligations.TickKeepsRegisterFields := by
  refine fun s => ⟨fun c o => ?operators, ?others⟩
  case operators =>
    have hop := nativeTick_keepsRegisters s c o
    unfold Operator.KeepsRegisters at hop
    rw [hop]
    and_intros <;> rfl
  case others =>
    rw [nativeTick_eq, lfoTick_eq, timerATick_eq, timerBTick_eq]
    and_intros <;> rfl

/-! ## The host's operations as steps (R321, R323, R325) -/

/-- Settles O7: each operation by the dispatch rule for the host's side; TICK returns a sample per tick. -/
theorem stepRunsTicksAndAdapterCalls : Obligations.StepRunsTicksAndAdapterCalls := by
  refine fun s rest => ⟨fun n hp => ?tick, fun n hp => ?advance, fun hp => ?takeBuffer⟩
  case tick => exact ⟨_, step_of_host hp rfl, rfl, rfl, rfl, rfl, ticks_length n s.chip⟩
  case advance => exact ⟨_, step_of_host hp rfl, rfl, rfl, rfl⟩
  case takeBuffer => exact ⟨_, step_of_host hp rfl, rfl, rfl, rfl, rfl⟩

/-! ## The resampler (R324) -/

section
variable (clockHz rateHz : Nat) (lr : Int × Int) (a : Adapter)

@[simp] theorem resample_cycleAcc : (Adapter.resample clockHz rateHz lr a).cycleAcc = a.cycleAcc := by rw [resample_eq]

@[simp] theorem resample_resampleAcc :
    (Adapter.resample clockHz rateHz lr a).resampleAcc = (a.resampleAcc + rateHz * 144) % clockHz := by rw [resample_eq]

@[simp] theorem resample_outBuf_length : (Adapter.resample clockHz rateHz lr a).outBuf.length =
    a.outBuf.length + 2 * ((a.resampleAcc + rateHz * 144) / clockHz) := by
  rw [resample_eq]
  simp [Nat.mul_comm]

end

/-- Settles O57: the closed form of a resampling, for a clock of 0 too. -/
theorem resamplerAppendsWholePairs : Obligations.ResamplerAppendsWholePairs :=
  fun clock rate l r a _ => resample_eq clock rate (l, r) a

/-! ## Splitting an advance (R327) -/

/-- The adapter with cycles still to spend. -/
def Adapter.addCycles (n : Nat) (a : Adapter) : Adapter := { a with cycleAcc := a.cycleAcc + n }

theorem Adapter.addCycles_add (a : Adapter) (m n : Nat) : (a.addCycles m).addCycles n = a.addCycles (m + n) := by
  simp only [Adapter.addCycles, Nat.add_assoc]

section
variable (clockHz rateHz : Nat)

/-- `Advance` is its loop on the adapter that has been given the cycles (R323). -/
theorem advance_eq_loop (cycles : Nat) (s : Chip) (a : Adapter) : Machine.advance clockHz rateHz cycles (s, a) =
    advanceLoop clockHz rateHz ((a.cycleAcc + cycles) / 144) (s, a.addCycles cycles) := rfl

/-- The resampler neither reads nor writes the cycles. -/
theorem resample_addCycles (lr : Int × Int) (n : Nat) (a : Adapter) :
    Adapter.resample clockHz rateHz lr (a.addCycles n) = (Adapter.resample clockHz rateHz lr a).addCycles n := by
  rw [resample_eq, resample_eq]
  rfl

/-- Rounds after rounds are the sum of the rounds, also where the first ones stop early. -/
theorem advanceLoop_add (m n : Nat) (s : Chip) (a : Adapter) :
    advanceLoop clockHz rateHz n (advanceLoop clockHz rateHz m (s, a)) = advanceLoop clockHz rateHz (m + n) (s, a) := by
  induction m generalizing s a with
  | zero => rw [Nat.zero_add]; rfl
  | succ m ih =>
    rcases Nat.lt_or_ge a.cycleAcc 144 with hlt | hge
    · simp only [advanceLoop_of_lt _ s hlt]
    · rw [Nat.succ_add, advanceLoop_succ_of_le m s hge, advanceLoop_succ_of_le (m + n) s hge, ih]

/-- Rounds that are paid for run the same with more cycles in hand, which are left over. -/
theorem advanceLoop_addCycles (b n : Nat) (s : Chip) {a : Adapter} (h : n * 144 ≤ a.cycleAcc) :
    advanceLoop clockHz rateHz n (s, a.addCycles b) =
      ((advanceLoop clockHz rateHz n (s, a)).1, (advanceLoop clockHz rateHz n (s, a)).2.addCycles b) := by
  induction n generalizing s a with
  | zero => rfl
  | succ n ih =>
    have hspend : { a.addCycles b with cycleAcc := (a.addCycles b).cycleAcc - 144 } =
        ({ a with cycleAcc := a.cycleAcc - 144 } : Adapter).addCycles b := by
      simp only [Adapter.addCycles, Adapter.mk.injEq, and_true]
      omega
    rw [advanceLoop_succ_of_le n s (by simp only [Adapter.addCycles]; omega), hspend, resample_addCycles,
      ih _ (by rw [resample_cycleAcc]; dsimp only; omega), advanceLoop_succ_of_le n s (by omega)]

end

/-- Settles O56: the rounds of `a` run the same with `b` already in hand, and those of `b` follow them in one loop. -/
theorem advanceSplits : Obligations.AdvanceSplits := by
  intro clock rate a b ⟨s, k⟩
  cases hfirst : Machine.advance clock rate a (s, k) with
  | mk t j =>
    have hcycles : j.cycleAcc = (k.cycleAcc + a) % 144 := by rw [← (advance_ticks clock rate a s k).2, hfirst]
    have hrounds : (k.cycleAcc + a) / 144 + (j.cycleAcc + b) / 144 = (k.cycleAcc + (a + b)) / 144 := by omega
    have hinHand : advanceLoop clock rate ((k.cycleAcc + a) / 144) (s, k.addCycles (a + b)) = (t, j.addCycles b) := by
      rw [← Adapter.addCycles_add, advanceLoop_addCycles _ _ b ((k.cycleAcc + a) / 144) s (a := k.addCycles a)
        (Nat.div_mul_le_self _ _), ← advance_eq_loop, hfirst]
    rw [advance_eq_loop, ← hinHand, advanceLoop_add, hrounds, ← advance_eq_loop]

/-! ## The source's frame (R328) -/

section
variable {clockHz rateHz : Nat}

/-- What the rounds put into the resampler is what it appended, a clock's worth for each pair, and what its accumulator holds. -/
theorem advanceLoop_conserves (n : Nat) (s : Chip) {a : Adapter} (h : n * 144 ≤ a.cycleAcc) :
    ∃ pairs, (advanceLoop clockHz rateHz n (s, a)).2.outBuf.length = a.outBuf.length + 2 * pairs ∧
      clockHz * pairs + (advanceLoop clockHz rateHz n (s, a)).2.resampleAcc = a.resampleAcc + n * (rateHz * 144) := by
  induction n generalizing s a with
  | zero => exact ⟨0, rfl, by simp [advanceLoop]⟩
  | succ n ih =>
    rw [advanceLoop_succ_of_le n s (by omega)]
    obtain ⟨pairs, hlen, hsum⟩ := ih s.nativeTick.1
      (a := Adapter.resample clockHz rateHz s.nativeTick.2 { a with cycleAcc := a.cycleAcc - 144 })
      (by rw [resample_cycleAcc]; dsimp only; omega)
    have hround := Nat.mod_add_div (a.resampleAcc + rateHz * 144) clockHz
    refine ⟨(a.resampleAcc + rateHz * 144) / clockHz + pairs, ?length, ?sum⟩
    case length =>
      rw [hlen, resample_outBuf_length]
      dsimp only
      omega
    case sum =>
      rw [resample_resampleAcc] at hsum
      linarith

/-- The accumulator stays below a clock's worth (R326). -/
theorem advanceLoop_resampleAcc_lt (n : Nat) (s : Chip) {a : Adapter} (h : a.resampleAcc < clockHz) :
    (advanceLoop clockHz rateHz n (s, a)).2.resampleAcc < clockHz := by
  refine advanceLoop_invariant (P := fun k => k.resampleAcc < clockHz) (fun k b hb => ?_) n s h
  rw [resample_resampleAcc]
  exact Nat.mod_lt _ (Nat.zero_lt_of_lt hb)

/-- `Advance` appends the pairs that its ticks pay for all together, however they fall on the single ticks. -/
theorem advance_outBuf_length (cycles : Nat) (s : Chip) {a : Adapter} (h : a.resampleAcc < clockHz) :
    (Machine.advance clockHz rateHz cycles (s, a)).2.outBuf.length =
      a.outBuf.length + 2 * ((a.resampleAcc + (a.cycleAcc + cycles) / 144 * (rateHz * 144)) / clockHz) := by
  rw [advance_eq_loop]
  obtain ⟨pairs, hlen, hsum⟩ := advanceLoop_conserves (clockHz := clockHz) (rateHz := rateHz) ((a.cycleAcc + cycles) / 144) s
    (a := a.addCycles cycles) (Nat.div_mul_le_self _ _)
  have hacc := advanceLoop_resampleAcc_lt (rateHz := rateHz) ((a.cycleAcc + cycles) / 144) s (a := a.addCycles cycles) h
  rw [Nat.add_comm] at hsum
  have hpairs := ((Nat.div_mod_unique (Nat.zero_lt_of_lt h)).mpr ⟨hsum, hacc⟩).1
  rw [hlen, ← hpairs]
  rfl

end

/-- Settles O58: ticks and cycles by `advance_ticks`, the buffer by `advance_outBuf_length`. -/
theorem frameGives887Ticks : Obligations.FrameGives887Ticks := by
  intro s
  obtain ⟨hticks, hcycles⟩ := advance_ticks 7670453 44100 (7670453 / 60) s Adapter.reset
  have hlen := advance_outBuf_length (clockHz := 7670453) (rateHz := 44100) (7670453 / 60) s (a := Adapter.reset) (by decide)
  exact ⟨rfl, hticks, hcycles, hlen⟩

end Sys2Proof.Machine
end

section
/-! PROOFS. Silence (70_reset_and_hazards.md R363): what a tick does to a silent block, and the whole block after any number of ticks
from power-on. -/

namespace Sys2Proof.Machine

/-! ## A released operator at full attenuation (41_envelope_generator.md R149; 42_operator_output.md R183, R185) -/

section
variable {x : Operator} {inc : Nat} {kc : BitVec 5} {cnt : BitVec 12}

/-- There is nothing above full attenuation to rise to. -/
theorem raised_of_full (hl : x.level = 0x3FF) : x.raised inc = 0x3FF := by
  apply BitVec.eq_of_toNat_eq
  rw [raised_toNat, hl]
  simp

/-- In Release an envelope step at full attenuation moves nothing, at any rate and with SSG-EG on or off. -/
theorem egStep_of_silent (hr : x.egState = .release) (hl : x.level = 0x3FF) : x.egStep kc cnt = x := by
  rw [egStep_of_release hr]
  simp only [raised_of_full hl, ite_self, ← hl]

/-- Total level and amplitude modulation only add to an attenuation that is full already. -/
theorem attOf_of_silent (hr : x.egState = .release) (hl : x.level = 0x3FF) (am : Nat) : attOf x am = 0x3FF := by
  rw [attOf, egOut_of_release hr, hl]
  simp

theorem opOut_full (idx : BitVec 10) : opOut idx 0x3FF = 0 := by
  rw [opOut_eq_zero_iff, ← Nat.le_zero, ← Nat.not_lt, opMag_pos_iff]
  omega

end

/-! ## Six channels at 0 (43_algorithm_router.md R203..R208) -/

theorem carrierSum_zero : ∀ alg : BitVec 3, carrierSum alg ⟨0, 0, 0, 0⟩ = 0 := by decide

/-- The ladder's offset stands whatever the pan (R207). -/
theorem ladder_zero (en : Bool) : ladder 0 en = 128 := by cases en <;> rfl

theorem mix_zero (s : Chip) : s.mix (fun _ => 0) = (384, 384) := by
  simp only [Chip.mix, ladder_zero]
  rfl

/-! ## The tick of a silent block -/

section
variable {s : Chip} (hs : s.Silent)
include hs

/-- No CSM trigger comes. -/
theorem not_csmTrigger_of_silent : ¬(s.timerA.overflows = true ∧ s.ch3Mode = .csm) := by
  obtain ⟨-, -, hload | hmode⟩ := hs
  · simp [TimerA.overflows, hload]
  · exact fun h => hmode h.2

/-- Release, CSM and the envelope leave every operator as it is. -/
theorem beforeChannels_op_of_silent (c : ChIx) (o : OpIx) : s.beforeChannels.op c o = s.op c o := by
  obtain ⟨hr, hl⟩ := hs.1 c o
  have htimer : s.timerStep.op c o = s.op c o := by
    rw [timerStep_op, if_neg fun h => not_csmTrigger_of_silent hs h.2, csmRelease_op, keyOff_of_release hr, ite_self]
  rw [beforeChannels_op, htimer, egStep_of_silent hr hl, ite_self]

theorem chanOuts_of_silent (c : ChIx) : s.beforeChannels.chanOuts c = ⟨0, 0, 0, 0⟩ := by
  refine PerOp.ext_get fun o => ?_
  obtain ⟨hr, hl⟩ := hs.1 c o
  have hout : (s.beforeChannels.chanOuts c).get o = 0 := by
    rw [chanOuts_get, Chip.opEval, Chip.att, beforeChannels_op_of_silent hs, attOf_of_silent hr hl, opOut_full]
  rw [hout]
  cases o <;> rfl

/-- All that a tick does to an operator: the phase advances and a 0 enters the history. -/
theorem nativeTick_op_of_silent (c : ChIx) (o : OpIx) :
    s.nativeTick.1.op c o = (s.op c o).record (s.beforeChannels.nextPhase c o) 0 := by
  rw [nativeTick_op, beforeChannels_op_of_silent hs, chanOuts_of_silent hs]
  cases o <;> rfl

theorem nativeTick_sample_of_silent : s.nativeTick.2 = (384, 384) := by
  have hsample : s.beforeChannels.chanSample = fun _ => 0 := by
    funext c
    have hdac : s.beforeChannels.dacEnable = false := by
      rw [beforeChannels_eq]
      exact hs.2.1
    rw [chanSample_of_not_dac (.inr hdac), chanOuts_of_silent hs, carrierSum_zero]
  rw [nativeTick_sample, hsample, mix_zero]

theorem nativeTick_silent : s.nativeTick.1.Silent := by
  refine ⟨fun c o => ?ops, ?dac, ?csm⟩
  case ops =>
    rw [nativeTick_op_of_silent hs]
    exact hs.1 c o
  case dac =>
    rw [nativeTick_eq]
    exact hs.2.1
  case csm =>
    rw [nativeTick_eq, timerATick_eq]
    exact hs.2.2

end

/-- Settles O14: the sample by `nativeTick_sample_of_silent`, the next block by `nativeTick_silent`. -/
theorem silentChipStaysSilent : Obligations.SilentChipStaysSilent :=
  fun _ hs => ⟨nativeTick_sample_of_silent hs, nativeTick_silent hs⟩

/-- Any number of ticks of a silent block. -/
theorem ticks_samples_of_silent (n : Nat) {s : Chip} (hs : s.Silent) : (s.ticks n).2 = List.replicate n (384, 384) := by
  induction n generalizing s with
  | zero => rfl
  | succ n ih => rw [Chip.ticks, ih (nativeTick_silent hs), nativeTick_sample_of_silent hs, List.replicate_succ]

/-! ## Power-on (R360) -/

@[simp] theorem reset_op (c : ChIx) (o : OpIx) : Chip.reset.op c o = Operator.reset := by cases c <;> cases o <;> rfl

@[simp] theorem reset_chan (c : ChIx) : Chip.reset.chan c = Channel.reset := by cases c <;> rfl

/-- Settles O12: the families by `reset_op`, `reset_chan` and the cases of the index, every single field by evaluation. -/
theorem powerOnState : Obligations.PowerOnState := by
  refine ⟨reset_op, reset_chan, fun p => ?latches, fun i => ?overrides, ?single⟩
  case latches => cases p <;> rfl
  case overrides => cases i <;> exact ⟨rfl, rfl⟩
  case single => and_intros <;> rfl

/-- Settles O59: the histories and the LFO counters are 0, and so are the clocks, the accumulators and the buffer's length. -/
theorem powerOnStateMeetsInvariant : Obligations.PowerOnStateMeetsInvariant := by
  refine ⟨⟨fun c o => ?history, ?lfo, ?sub, fun _ => rfl, ?busy, Nat.le_refl 0, rfl⟩, ?cycles, ?resample, ?buffer, rfl⟩
  case history =>
    have hop : State.reset.chip.op c o = Operator.reset := reset_op c o
    rw [hop, Operator.Inv]
    decide
  case lfo => exact ⟨Nat.zero_le _, Nat.zero_le _, fun _ => ⟨rfl, rfl, rfl⟩, .inr ⟨rfl, rfl⟩⟩
  case sub => exact Nat.zero_le _
  case busy => exact Nat.zero_le _
  case cycles => decide
  case resample => exact Config.cpuClockHz.pos
  case buffer => exact List.forall_mem_nil _

theorem reset_silent : Chip.reset.Silent := ⟨fun c o => by rw [reset_op]; exact ⟨rfl, rfl⟩, rfl, .inl rfl⟩

/-! ## Ticks from power-on (R363) -/

/-- The block of power-on with its clocks at `n` ticks: the envelope counter has run a third as many steps. -/
def Chip.poweredFor (n : Nat) : Chip :=
  { Chip.reset with egCounter := egCounterNext^[n / 3] 0, egSub := n % 3, sampleCount := n }

/-- Silence reads no clock. -/
theorem poweredFor_silent (n : Nat) : (Chip.poweredFor n).Silent := reset_silent

theorem poweredFor_op (n : Nat) (c : ChIx) (o : OpIx) : (Chip.poweredFor n).op c o = Operator.reset := reset_op c o

/-- The frequency registers are 0 (40_phase_generator.md R120). -/
theorem poweredFor_fSrc (n : Nat) (c : ChIx) (o : OpIx) : (Chip.poweredFor n).fSrc c o = ⟨0, 0⟩ := by cases c <;> rfl

/-- At F-number 0 and with the LFO at rest the phase does not advance (40_phase_generator.md R125). -/
theorem poweredFor_nextPhase (n : Nat) (c : ChIx) (o : OpIx) : (Chip.poweredFor n).beforeChannels.nextPhase c o = 0 := by
  have hstep : (Chip.poweredFor n).beforeChannels.lfo.step = 0 := by
    rw [beforeChannels_eq]
    rfl
  rw [Chip.nextPhase, Chip.increment, beforeChannels_op_of_silent (poweredFor_silent n), poweredFor_op, beforeChannels_fSrc,
    poweredFor_fSrc, pmDelta_of_step_zero hstep]
  decide

/-- A tick after power-on moves the clocks alone. -/
theorem nativeTick_poweredFor (n : Nat) : (Chip.poweredFor n).nativeTick.1 = Chip.poweredFor (n + 1) := by
  have hops : (Chip.poweredFor n).nativeTick.1.ops = Chip.reset.ops := by
    refine PerCh.ext_get fun c => PerOp.ext_get fun o => ?_
    have htick := nativeTick_op_of_silent (poweredFor_silent n) c o
    rw [poweredFor_nextPhase, poweredFor_op] at htick
    exact htick.trans (reset_op c o).symm
  have hcounter : (if n % 3 + 1 = 3 then egCounterNext (egCounterNext^[n / 3] 0) else egCounterNext^[n / 3] 0) =
      egCounterNext^[(n + 1) / 3] 0 := by
    split
    case isTrue h => rw [← Function.iterate_succ_apply' egCounterNext, show (n + 1) / 3 = n / 3 + 1 by omega]
    case isFalse h => rw [show (n + 1) / 3 = n / 3 by omega]
  have hsub : (if n % 3 + 1 = 3 then 0 else n % 3 + 1) = (n + 1) % 3 := by
    split <;> omega
  rw [nativeTick_eq, hops, Chip.poweredFor, Chip.poweredFor, ← hcounter, ← hsub]
  rfl

/-- The whole block after `n` ticks from power-on. -/
theorem reset_ticks (n : Nat) : (Chip.reset.ticks n).1 = Chip.poweredFor n := by
  induction n with
  | zero => rfl
  | succ n ih => rw [(ticks_add n 1 _).1, ih, ← nativeTick_poweredFor]; rfl

/-- The envelope counter runs through 1 to 4095 (41_envelope_generator.md R140). -/
theorem egCounterNext_iterate_toNat (k : Nat) :
    (egCounterNext^[k] 0).toNat = if k = 0 then 0 else (k - 1) % 4095 + 1 := by
  induction k with
  | zero => rfl
  | succ k ih =>
    rw [Function.iterate_succ_apply', egCounterNext_toNat, ih, if_neg k.succ_ne_zero]
    rcases k.eq_zero_or_pos with rfl | hk
    · rfl
    · rw [if_neg hk.ne']
      split <;> omega

/-- Settles O13: the samples by silence, all else by the closed form of the block after `n` ticks. -/
theorem powerOnChipOutputs384 : Obligations.PowerOnChipOutputs384 := by
  intro n
  rw [reset_ticks]
  refine ⟨ticks_samples_of_silent n reset_silent, fun c o => ?ops, rfl, rfl, rfl, egCounterNext_iterate_toNat (n / 3)⟩
  case ops =>
    rw [poweredFor_op, Chip.keyCode, poweredFor_fSrc]
    exact ⟨rfl, rfl, rfl, rfl, by decide, fun cnt => rfl⟩

end Sys2Proof.Machine
end

section
/-! PROOFS. Where a step stops (60_exceptions.md R340, R341, R355): exactly on the operations that the machine does not accept. -/

namespace Sys2Proof.Machine

/-! ## Operations that are accepted (R341; 30_encoding.md R93) -/

/-- An operation that must name an instruction is accepted if and only if it names one. -/
theorem accepted_of_instrOr {op : HostOp} {r : Refusal} {o : Option Instr} (h : op.instr = instrOr r o) :
    op.accepted = true ↔ o ≠ none := by
  rw [HostOp.accepted, h]
  cases o <;> simp [instrOr]

theorem portWriteInstr_eq_none_iff (port : Nat) (v : Byte) : portWriteInstr port v = none ↔ 3 < port := by
  match port with
  | 0 | 1 | 2 | 3 => simp [portWriteInstr]
  | k + 4 => exact iff_of_true rfl (by omega)

theorem portReadInstr_eq_none_iff (port : Nat) : portReadInstr port = none ↔ 3 < port := by
  match port with
  | 0 | 1 | 2 | 3 => simp [portReadInstr]
  | k + 4 => exact iff_of_true rfl (by omega)

/-- Format R has room for every number that format P has. -/
theorem decodeTableWord_eq_none_iff (nbits w : Nat) : decodeTableWord nbits w = none ↔ 131072 ≤ w := by
  rw [decodeTableWord, Option.map_eq_none_iff, OpWord.ofTable]
  split
  case isTrue h => exact iff_of_false nofun (by omega)
  case isFalse =>
    split
    case isTrue h => exact iff_of_false nofun (by omega)
    case isFalse h => exact iff_of_true rfl (by omega)

theorem accepted_word_iff (nbits w : Nat) : (HostOp.word nbits w).accepted = true ↔ w < 131072 := by
  rw [accepted_of_instrOr rfl, ne_eq, decodeTableWord_eq_none_iff, Nat.not_le]

theorem accepted_portWrite_iff (port : Nat) (v : Byte) : (HostOp.portWrite port v).accepted = true ↔ port ≤ 3 := by
  rw [accepted_of_instrOr rfl, ne_eq, portWriteInstr_eq_none_iff, Nat.not_lt]

theorem accepted_portRead_iff (port : Nat) : (HostOp.portRead port).accepted = true ↔ port ≤ 3 := by
  rw [accepted_of_instrOr rfl, ne_eq, portReadInstr_eq_none_iff, Nat.not_lt]

/-! ## The step -/

section
variable {s : State} {op : HostOp} {rest : List HostOp}

/-- The dispatch rule for the operations that are refused. -/
theorem step_of_refusal {r : Refusal} (h : s.pending = op :: rest) (hi : op.instr = .error r) : step s = .refused r := by
  simp only [step, h, List.head?_cons, hi]

/-- An accepted operation always completes, for no instruction stops (R340); the others are refused before they reach the block. -/
theorem step_next_iff_accepted (h : s.pending = op :: rest) : (∃ t, step s = .next t) ↔ op.accepted = true := by
  rw [HostOp.accepted]
  cases hi : op.instr with
  | error r => simp [step_of_refusal h hi]
  | ok o =>
    cases o with
    | none => simp [step_of_host h hi]
    | some i =>
      obtain ⟨t, ht, -⟩ := exec_next i { s with pending := rest }
      simp [step_of_instr h hi, ht]

end

/-! ## The claims -/

/-- Settles O8, by the step's first case. -/
theorem stepWithNothingIssuedIsIdle : Obligations.StepWithNothingIssuedIsIdle := fun _ h => step_of_nil h

/-- Settles O9: a word's port is its port field, by O1; a port above 3 names no instruction, so that the step refuses it. -/
theorem portOutsideRangeIsRefused : Obligations.PortOutsideRangeIsRefused := by
  refine ⟨fun w => ⟨w.toNat / 256 % 4, by omega, ?word⟩, fun s port v rest hport => ⟨fun hp => ?write, fun hp => ?read⟩⟩
  case word =>
    have hw := portWordSelectsPortOperation w
    split at hw
    · exact .inl hw
    · exact .inr ⟨_, hw⟩
  case write => exact step_of_refusal hp (by rw [HostOp.instr, (portWriteInstr_eq_none_iff port v).mpr hport, instrOr])
  case read => exact step_of_refusal hp (by rw [HostOp.instr, (portReadInstr_eq_none_iff port).mpr hport, instrOr])

/-- Settles O10: `exec_next` for the instructions, `step_next_iff_accepted` for the steps. -/
theorem everyInstructionCompletes : Obligations.EveryInstructionCompletes := by
  refine ⟨fun i s => ?exec, fun s rest port v hport => ⟨fun hp => ?write, fun hp => ?read, fun hp => ?tick⟩, fun ⟨f, _⟩ => nomatch f⟩
  case exec =>
    obtain ⟨t, ht, -⟩ := exec_next i s
    exact ⟨t, ht⟩
  case write => exact (step_next_iff_accepted hp).mpr ((accepted_portWrite_iff port v).mpr hport)
  case read => exact (step_next_iff_accepted hp).mpr ((accepted_portRead_iff port).mpr hport)
  case tick => exact (step_next_iff_accepted hp).mpr rfl

/-- Settles O11: `step_next_iff_accepted`, and which operations of each kind are accepted. -/
theorem stepStopsOnlyOnUnacceptedOperation : Obligations.StepStopsOnlyOnUnacceptedOperation := by
  intro s op rest hp
  rw [step_next_iff_accepted hp]
  cases op with
  | word nbits w => exact accepted_word_iff nbits w
  | portWrite port v => exact accepted_portWrite_iff port v
  | portRead port => exact accepted_portRead_iff port
  | tick | advance | takeBuffer => exact iff_true_intro rfl

end Sys2Proof.Machine
end
